-- ==== Sys2Proof/Word.lean ====
section
/-! DEFINITION. The word types of the block and their plainest arithmetic (spec/00_scope.md R10 to R12).
Registers, addresses on the wire and packed fields are bit vectors; page ids, buffer offsets and lengths are
naturals; results of the bus port are integers. -/

namespace Sys2Proof

/-- One byte, the `u8` of R11. -/
abbrev Byte := BitVec 8

/-- A 16-bit word, the `u16` of R11. The same type holds an `i16`, whose number is `BitVec.toInt` (R12). -/
abbrev Half := BitVec 16

/-- A microsecond timestamp, the `u64` of R11 and R262. -/
abbrev Timestamp := BitVec 64

/-- A 7-bit peripheral address of a bus instance (R60, R71). -/
abbrev BusAddr := BitVec 7

/-- One EEPROM page, or the whole of PBUF: 32 bytes (R34, R40, P13). -/
abbrev Page := Vector Byte 32

end Sys2Proof
end

