-- ==== Sys2Proof/Config.lean ====
section
/-! DEFINITION. What an implementation of the block fixes and what the environment leaves free
(spec/00_scope.md R8, spec/20_memory.md R61 to R66, spec/60_exceptions.md R262).

`Params` is the configuration record of P1 to P28. `Config.params` is this hardware's: a parameter the spec gives a
value has that value; an OPEN one is an `opaque` constant, so that nothing about it can be proved or evaluated.
`Params.Stated` says of a record that it has the values the spec states. -/

namespace Sys2Proof

/-- The two bus instances of the bus port (R3, R60). -/
inductive BusId where
  | bus0
  | bus1
deriving DecidableEq, Repr, Inhabited

/-- The configuration record of one block instance, P1 to P28 (R8), and one figure of the model's own that R64 speaks
of without giving it a value. Every rule names a parameter, never its number. -/
structure Params where
  /-- P1 `ADC_HAS_COMPARATOR`. -/
  adcHasComparator : Bool
  /-- P2 `ADC_ADDR`. -/
  adcAddr : BusAddr
  /-- P3 `ADC_BUS`. -/
  adcBus : BusId
  /-- P4 `DAC_BUS`. -/
  dacBus : BusId
  /-- P5 `EE_BUS`. -/
  eeBus : BusId
  /-- P6 `DAC_SUBADDR`. -/
  dacSubaddr : BitVec 3
  /-- P7 `DAC_CLASS_NIBBLE`. -/
  dacClassNibble : BitVec 4
  /-- P8 `DAC_CMD_MULTIWRITE`. -/
  dacCmdMultiwrite : BitVec 5
  /-- P9 `DAC_UDAC`. -/
  dacUdac : BitVec 1
  /-- P10 `EE_CLASS_NIBBLE`. -/
  eeClassNibble : BitVec 4
  /-- P11 `EE_CS`. -/
  eeCs : BitVec 3
  /-- P12 `EE_PAGES`. -/
  eePages : Nat
  /-- P13 `EE_PAGE_SIZE`. -/
  eePageSize : Nat
  /-- P14 `EE_SIG_PAGE`. -/
  eeSigPage : Nat
  /-- P15 `EE_SETTLE_US`. -/
  eeSettleUs : Nat
  /-- P16 `EE_WRITE_TRIES`. -/
  eeWriteTries : Nat
  /-- P17 `ADC_COMPLETE_TRIES`. -/
  adcCompleteTries : Nat
  /-- P18 `LATENCY_US[0..7]`, the expected conversion latency of each DR code, in µs. -/
  latencyUs : Vector Nat 8
  /-- P19 `FSR_MV[0..5]`, the full-scale range of each PGA code, in mV. -/
  fsrMv : Vector Nat 6
  /-- P20 `DAC_MAX`. -/
  dacMax : Nat
  /-- P21 `COUNTS_FULL`. -/
  countsFull : Nat
  /-- P22 `SIG_PATTERN[0..4]`. -/
  sigPattern : Vector Byte 5
  /-- P23 `BUILD_DATE[0..3]`. -/
  buildDate : Vector Byte 4
  /-- P24 `INIT_CONTENT(id)`, id 0..126. -/
  initContent : Vector Page 127
  /-- P25 `BUS_TIMEOUT_US`. -/
  busTimeoutUs : Nat
  /-- P26 `READ_WAITS_FOR_READY`. -/
  readWaitsForReady : Bool
  /-- P27 `ADC_RETRY_REARM`. -/
  adcRetryRearm : Bool
  /-- P28 `COMP_DEFAULT`. -/
  compDefault : BitVec 5
  /-- The model's own: the most a transfer itself takes, in µs. R64 bounds the time of a transaction by
  `BUS_TIMEOUT_US` "plus the transfer time" and gives no transfer time (log entry 4). -/
  transferUs : Nat
deriving DecidableEq, Repr

/-- One choice of the environment. A bus transaction uses `result` (what the transfer answers), `data` (the bytes a
read returns) and `advance` (how long it took); a clock read or a sleep uses `advance`; a byte draw uses `data`. -/
structure Draw where
  /-- What the bus answers, before the limits of R61 are applied. -/
  result : Int
  /-- The bytes a read or a byte draw yields. -/
  data : Page
  /-- By how many µs the clock moves. -/
  advance : Nat
deriving DecidableEq, Repr, Inhabited

/-- P2: no source gives it (D12). -/
opaque Config.adcAddr : BusAddr
/-- P3 (D40). -/
opaque Config.adcBus : BusId
/-- P4 (D40). -/
opaque Config.dacBus : BusId
/-- P5 (D40). -/
opaque Config.eeBus : BusId
/-- P6 (D40). -/
opaque Config.dacSubaddr : BitVec 3
/-- P11 (D40). -/
opaque Config.eeCs : BitVec 3
/-- P22 (D35). -/
opaque Config.sigPattern : Vector Byte 5
/-- P23 (D35). -/
opaque Config.buildDate : Vector Byte 4
/-- P24 (D33). -/
opaque Config.initContent : Vector Page 127
/-- P25 (D39). -/
opaque Config.busTimeoutUs : Nat
/-- The transfer time that R64 leaves without a value (log entry 4). -/
opaque Config.transferUs : Nat

/-- The `n`-th choice of the environment, where nothing in the state says what it is: `Draw<T>()` of R14 and the
oracle of R66. No law constrains it. -/
opaque Config.freeDraw : Nat → Draw

/-- This hardware's parameters (R8): the ones with a stated value as the table before R8 gives them, the OPEN ones
uninterpreted. -/
def Config.params : Params where
  adcHasComparator := true
  adcAddr := Config.adcAddr
  adcBus := Config.adcBus
  dacBus := Config.dacBus
  eeBus := Config.eeBus
  dacSubaddr := Config.dacSubaddr
  dacClassNibble := 0b1100
  dacCmdMultiwrite := 0b01000
  dacUdac := 0
  eeClassNibble := 0b1010
  eeCs := Config.eeCs
  eePages := 128
  eePageSize := 32
  eeSigPage := 127
  eeSettleUs := 5000
  eeWriteTries := 3
  adcCompleteTries := 2
  latencyUs := #v[162000, 81000, 40500, 21000, 10500, 6000, 3000, 1500]
  fsrMv := #v[6144, 4096, 2048, 1024, 512, 256]
  dacMax := 4095
  countsFull := 32767
  sigPattern := Config.sigPattern
  buildDate := Config.buildDate
  initContent := Config.initContent
  busTimeoutUs := Config.busTimeoutUs
  readWaitsForReady := false
  adcRetryRearm := true
  compDefault := 0b00011
  transferUs := Config.transferUs

/-- The record has the stated values of P7 to P10, P12 to P21 and P28, which R8 says "are fixed for this hardware". The
switches P1, P26 and P27 are left out: what the block does is specified for both values of each. -/
structure Params.Stated (p : Params) : Prop where
  dacClassNibble : p.dacClassNibble = 0b1100
  dacCmdMultiwrite : p.dacCmdMultiwrite = 0b01000
  dacUdac : p.dacUdac = 0
  eeClassNibble : p.eeClassNibble = 0b1010
  eePages : p.eePages = 128
  eePageSize : p.eePageSize = 32
  eeSigPage : p.eeSigPage = 127
  eeSettleUs : p.eeSettleUs = 5000
  eeWriteTries : p.eeWriteTries = 3
  adcCompleteTries : p.adcCompleteTries = 2
  latencyUs : p.latencyUs = #v[162000, 81000, 40500, 21000, 10500, 6000, 3000, 1500]
  fsrMv : p.fsrMv = #v[6144, 4096, 2048, 1024, 512, 256]
  dacMax : p.dacMax = 4095
  countsFull : p.countsFull = 32767
  compDefault : p.compDefault = 0b00011

end Sys2Proof
end

