-- ==== Sys2Proof/Syntax.lean ====
section
/-! DEFINITION. The operations of the block (spec/30_encoding.md R90 to R94): one constructor of `Instr` per row of
spec/opcode_table.json, the sixteen operand formats, and an operation as the host presents it. -/

namespace Sys2Proof

/-- An operation with its operands, one constructor per row of the opcode map R92. A `Nat` operand is an unbounded
natural that the operation saturates, `Int` an unbounded integer, and a `uN` or `i16` operand a bit vector of that
width (R90's table of formats). -/
inductive Instr where
  /-- CODEC.PACK, R131. -/
  | codecPack (os mux pga mode dr cmode cpol clat cque : Nat)
  /-- CODEC.UNPACK, R132. -/
  | codecUnpack (word : Half)
  /-- CODEC.NUM2OS, R133. -/
  | codecNum2os (n : Nat)
  /-- CODEC.NUM2MUX, R134. -/
  | codecNum2mux (n : Nat)
  /-- CODEC.NUM2PGA, R135. -/
  | codecNum2pga (n : Nat)
  /-- CODEC.NUM2MODE, R136. -/
  | codecNum2mode (n : Nat)
  /-- CODEC.NUM2DR, R137. -/
  | codecNum2dr (n : Nat)
  /-- CODEC.NUM2CMODE, R138. -/
  | codecNum2cmode (n : Nat)
  /-- CODEC.NUM2CPOL, R139. -/
  | codecNum2cpol (n : Nat)
  /-- CODEC.NUM2CLAT, R140. -/
  | codecNum2clat (n : Nat)
  /-- CODEC.NUM2CQUE, R141. -/
  | codecNum2cque (n : Nat)
  /-- CODEC.LATENCY, R142. -/
  | codecLatency (n : Nat)
  /-- CODEC.FSR, R143. -/
  | codecFsr (n : Nat)
  /-- CODEC.VOLTS, R144. -/
  | codecVolts (counts : Half) (pga : Nat)
  /-- CODEC.CTRLBYTE, R145. -/
  | codecCtrlbyte (nibble : BitVec 4) (cs : BitVec 3)
  /-- CODEC.SIG, R146. -/
  | codecSig
  /-- ADC.CONFIG, R175. -/
  | adcConfig (pga dr cmode cpol clat cque : Nat)
  /-- ADC.START, R172. -/
  | adcStart (ch mode : Nat)
  /-- ADC.COMPLETE, R173. -/
  | adcComplete (ch : Nat)
  /-- ADC.READC, R176. -/
  | adcReadc (ch : Nat) (force : Bool)
  /-- ADC.STATUS, R177. -/
  | adcStatus
  /-- DAC.CLAMP, R200. -/
  | dacClamp (data : Int)
  /-- DAC.FRAME, R201. -/
  | dacFrame (ch pd gain vref : Nat) (data : Int)
  /-- DAC.SETCFG, R202. -/
  | dacSetcfg (ch pd gain vref : Nat)
  /-- DAC.WRITE, R203. -/
  | dacWrite (ch : Nat) (data : Int)
  /-- EE.READ, R221. -/
  | eeRead (id : Nat)
  /-- EE.WRITE, R223. -/
  | eeWrite (id : Nat)
  /-- EE.READY, R222. -/
  | eeReady (tries : Nat)
  /-- EE.FORMAT, R224. -/
  | eeFormat
  /-- EE.INIT, R225. -/
  | eeInit
  /-- EE.CHECKSIG, R226. -/
  | eeChecksig
deriving DecidableEq, Repr

/-- The operand record shapes of R90. -/
inductive Format where
  | f0 | fpack | fw16 | fn | fvolt | fctrl | facfg | fchm | fch | fchf | fdata | fdframe | fdcfg | fdw | fpg | ftry
deriving DecidableEq, Repr

/-- The kinds of operand that R90's formats are made of: `Nat`, `Int`, `uN`, `i16`, `Bool`. -/
inductive OperandKind where
  | nat
  | int
  | bits (width : Nat)
  | i16
  | bool
deriving DecidableEq, Repr

/-- An operation as the host presents it (R90): the 8-bit operation code and the operand record, its operands as
numbers in the order of the format's record (R94; a `Bool` is 0 or 1). -/
structure Operation where
  code : Byte
  record : List Int
deriving DecidableEq, Repr

end Sys2Proof
end

