-- ==== Sys2Proof/WellFormed.lean ====
section
/-! DEFINITION. The host port types every operand record (spec/30_encoding.md R93: "An operand record of the wrong
shape for its code cannot be presented (the host port types it)"). This file is that check: how many operands, and
each within its kind. The decoder refuses, by name, a record that fails it. -/

namespace Sys2Proof

/-- Whether the number `x` is a value of the operand kind (R11, R90). -/
def OperandKind.admits : OperandKind → Int → Bool
  | .nat, x => decide (0 ≤ x)
  | .int, _ => true
  | .bits w, x => decide (0 ≤ x ∧ x < 2 ^ w)
  | .i16, x => decide (-32768 ≤ x ∧ x < 32768)
  | .bool, x => decide (x = 0 ∨ x = 1)

/-- Whether a record has exactly one operand of each kind listed, in that order. -/
def recordFits : List OperandKind → List Int → Bool
  | [], [] => true
  | k :: ks, x :: xs => k.admits x && recordFits ks xs
  | _, _ => false

end Sys2Proof
end

