-- ==== Sys2Proof/Decode.lean ====
section
/-! DEFINITION. The opcode map and the decoder (spec/30_encoding.md R90 to R93), and the encoder after it. Decoding is
total: an operation is one of the 31 operations, has a reserved code, or has a record of the wrong shape for its code. -/

namespace Sys2Proof

/-- The operand kinds of each format's record, in order (R90's table of formats). -/
def formatKinds : Format → List OperandKind
  | .f0 => []
  | .fpack => [.nat, .nat, .nat, .nat, .nat, .nat, .nat, .nat, .nat]
  | .fw16 => [.bits 16]
  | .fn => [.nat]
  | .fvolt => [.i16, .nat]
  | .fctrl => [.bits 4, .bits 3]
  | .facfg => [.nat, .nat, .nat, .nat, .nat, .nat]
  | .fchm => [.nat, .nat]
  | .fch => [.nat]
  | .fchf => [.nat, .bool]
  | .fdata => [.int]
  | .fdframe => [.nat, .nat, .nat, .nat, .int]
  | .fdcfg => [.nat, .nat, .nat, .nat]
  | .fdw => [.nat, .int]
  | .fpg => [.nat]
  | .ftry => [.nat]

/-- The format a code selects, R92's map; `none` for the reserved codes of R93. The decoder matches the whole byte
(R91). -/
def codeFormat (code : Byte) : Option Format :=
  match code.toNat with
  | 0x00 => some .fpack
  | 0x01 => some .fw16
  | 0x02 => some .fn
  | 0x03 => some .fn
  | 0x04 => some .fn
  | 0x05 => some .fn
  | 0x06 => some .fn
  | 0x07 => some .fn
  | 0x08 => some .fn
  | 0x09 => some .fn
  | 0x0A => some .fn
  | 0x0B => some .fn
  | 0x0C => some .fn
  | 0x0D => some .fvolt
  | 0x0E => some .fctrl
  | 0x0F => some .f0
  | 0x10 => some .facfg
  | 0x11 => some .fchm
  | 0x12 => some .fch
  | 0x13 => some .fchf
  | 0x14 => some .f0
  | 0x20 => some .fdata
  | 0x21 => some .fdframe
  | 0x22 => some .fdcfg
  | 0x23 => some .fdw
  | 0x30 => some .fpg
  | 0x31 => some .fpg
  | 0x32 => some .ftry
  | 0x33 => some .f0
  | 0x34 => some .f0
  | 0x35 => some .f0
  | _ => none

/-- The operation a code and a record of its format spell (R92). -/
def codeInstr (code : Byte) (record : List Int) : Option Instr :=
  match code.toNat, record with
  | 0x00, [os, mux, pga, mode, dr, cmode, cpol, clat, cque] =>
    some (.codecPack os.toNat mux.toNat pga.toNat mode.toNat dr.toNat cmode.toNat cpol.toNat clat.toNat cque.toNat)
  | 0x01, [w] => some (.codecUnpack (BitVec.ofInt 16 w))
  | 0x02, [n] => some (.codecNum2os n.toNat)
  | 0x03, [n] => some (.codecNum2mux n.toNat)
  | 0x04, [n] => some (.codecNum2pga n.toNat)
  | 0x05, [n] => some (.codecNum2mode n.toNat)
  | 0x06, [n] => some (.codecNum2dr n.toNat)
  | 0x07, [n] => some (.codecNum2cmode n.toNat)
  | 0x08, [n] => some (.codecNum2cpol n.toNat)
  | 0x09, [n] => some (.codecNum2clat n.toNat)
  | 0x0A, [n] => some (.codecNum2cque n.toNat)
  | 0x0B, [n] => some (.codecLatency n.toNat)
  | 0x0C, [n] => some (.codecFsr n.toNat)
  | 0x0D, [counts, pga] => some (.codecVolts (BitVec.ofInt 16 counts) pga.toNat)
  | 0x0E, [nibble, cs] => some (.codecCtrlbyte (BitVec.ofInt 4 nibble) (BitVec.ofInt 3 cs))
  | 0x0F, [] => some .codecSig
  | 0x10, [pga, dr, cmode, cpol, clat, cque] =>
    some (.adcConfig pga.toNat dr.toNat cmode.toNat cpol.toNat clat.toNat cque.toNat)
  | 0x11, [ch, mode] => some (.adcStart ch.toNat mode.toNat)
  | 0x12, [ch] => some (.adcComplete ch.toNat)
  | 0x13, [ch, force] => some (.adcReadc ch.toNat (decide (force = 1)))
  | 0x14, [] => some .adcStatus
  | 0x20, [data] => some (.dacClamp data)
  | 0x21, [ch, pd, gain, vref, data] => some (.dacFrame ch.toNat pd.toNat gain.toNat vref.toNat data)
  | 0x22, [ch, pd, gain, vref] => some (.dacSetcfg ch.toNat pd.toNat gain.toNat vref.toNat)
  | 0x23, [ch, data] => some (.dacWrite ch.toNat data)
  | 0x30, [id] => some (.eeRead id.toNat)
  | 0x31, [id] => some (.eeWrite id.toNat)
  | 0x32, [tries] => some (.eeReady tries.toNat)
  | 0x33, [] => some .eeFormat
  | 0x34, [] => some .eeInit
  | 0x35, [] => some .eeChecksig
  | _, _ => none

/-- What the block makes of a presented operation. -/
inductive Decoded where
  /-- One of the 31 operations. -/
  | instr (i : Instr)
  /-- A reserved code (R93): answered with BAD_OPCODE, whatever the record. -/
  | reserved
  /-- A record of the wrong shape for its code, which the host port does not let through (R93). -/
  | wrongShape
deriving DecidableEq, Repr

/-- The decoder. The code is looked at before any operand (R256, item 1). -/
def decode (op : Operation) : Decoded :=
  match codeFormat op.code with
  | none => .reserved
  | some f =>
    if recordFits (formatKinds f) op.record then
      match codeInstr op.code op.record with
      | some i => .instr i
      | none => .wrongShape
    else .wrongShape

/-- The operation code of each operation (R92). -/
def instrCode : Instr → Byte
  | .codecPack .. => 0x00
  | .codecUnpack .. => 0x01
  | .codecNum2os .. => 0x02
  | .codecNum2mux .. => 0x03
  | .codecNum2pga .. => 0x04
  | .codecNum2mode .. => 0x05
  | .codecNum2dr .. => 0x06
  | .codecNum2cmode .. => 0x07
  | .codecNum2cpol .. => 0x08
  | .codecNum2clat .. => 0x09
  | .codecNum2cque .. => 0x0A
  | .codecLatency .. => 0x0B
  | .codecFsr .. => 0x0C
  | .codecVolts .. => 0x0D
  | .codecCtrlbyte .. => 0x0E
  | .codecSig => 0x0F
  | .adcConfig .. => 0x10
  | .adcStart .. => 0x11
  | .adcComplete .. => 0x12
  | .adcReadc .. => 0x13
  | .adcStatus => 0x14
  | .dacClamp .. => 0x20
  | .dacFrame .. => 0x21
  | .dacSetcfg .. => 0x22
  | .dacWrite .. => 0x23
  | .eeRead .. => 0x30
  | .eeWrite .. => 0x31
  | .eeReady .. => 0x32
  | .eeFormat => 0x33
  | .eeInit => 0x34
  | .eeChecksig => 0x35

/-- The operand record of each operation, operands in the order of its format (R90, R94). -/
def instrRecord : Instr → List Int
  | .codecPack os mux pga mode dr cmode cpol clat cque => [os, mux, pga, mode, dr, cmode, cpol, clat, cque]
  | .codecUnpack word => [word.toNat]
  | .codecNum2os n => [n]
  | .codecNum2mux n => [n]
  | .codecNum2pga n => [n]
  | .codecNum2mode n => [n]
  | .codecNum2dr n => [n]
  | .codecNum2cmode n => [n]
  | .codecNum2cpol n => [n]
  | .codecNum2clat n => [n]
  | .codecNum2cque n => [n]
  | .codecLatency n => [n]
  | .codecFsr n => [n]
  | .codecVolts counts pga => [counts.toInt, pga]
  | .codecCtrlbyte nibble cs => [nibble.toNat, cs.toNat]
  | .codecSig => []
  | .adcConfig pga dr cmode cpol clat cque => [pga, dr, cmode, cpol, clat, cque]
  | .adcStart ch mode => [ch, mode]
  | .adcComplete ch => [ch]
  | .adcReadc ch force => [ch, if force then 1 else 0]
  | .adcStatus => []
  | .dacClamp data => [data]
  | .dacFrame ch pd gain vref data => [ch, pd, gain, vref, data]
  | .dacSetcfg ch pd gain vref => [ch, pd, gain, vref]
  | .dacWrite ch data => [ch, data]
  | .eeRead id => [id]
  | .eeWrite id => [id]
  | .eeReady tries => [tries]
  | .eeFormat => []
  | .eeInit => []
  | .eeChecksig => []

/-- The encoder: the operation code and operand record of an operation (R90, R92). -/
def encode (i : Instr) : Operation where
  code := instrCode i
  record := instrRecord i

/-- The operation whose code byte is the low byte of `w` and whose operands are all zero: what the opcode table's
word of `nbits` bits spells, since the table gives the operand record no bits. -/
def tableOperation (nbits w : Nat) : Operation :=
  let code := BitVec.ofNat 8 (w % 2 ^ nbits)
  { code
    record := match codeFormat code with
      | some f => (formatKinds f).map fun _ => 0
      | none => [] }

/-- The instruction the decoder reads from an opcode-table word; `none` where it refuses it. -/
def decodeTableWord (nbits w : Nat) : Option Instr :=
  match decode (tableOperation nbits w) with
  | .instr i => some i
  | _ => none

end Sys2Proof
end

