-- ==== Sys2Proof/Machine/State.lean ====
section
/-! DEFINITION. The state of one block instance (spec/10_state.md R20 to R40), the reasons a step can stop, and the
state after reset (spec/70_reset_and_hazards.md R280). Everything is plain data.

The spec's record `S` is `adc`, `dac`, `ee`, `pbuf` and `res`, with the two marks of R258 and R267. Beside it stand the
parameters R8 (fixed for a run), the operations the host has still to present, the event history that R67 makes the
observation of the block, and the environment: the clock, the choices of the oracle, and, where a claim wants them,
the reference devices of R80 to R83. -/

namespace Sys2Proof.Machine

/-- Memory as a list of (address, byte) pairs with strictly rising addresses. What an address that is not listed
reads as is said by each user: unwritten for PBUF, `Memory.erased` for the reference EEPROM. -/
abbrev Memory := List Host.Cell

/-- The conversion phase `S.adc.phase` (R23, R29). -/
inductive Phase where
  | idle
  | converting
  | ready
  | error
deriving DecidableEq, Repr, Inhabited

/-- The error kinds of R252. -/
inductive ErrKind where
  | none
  | bus
  | mismatch
  | notReady
  | busy
  | pending
  | notConverting
  | badOperand
  | partialFail
  | sigMismatch
  | badOpcode
deriving DecidableEq, Repr, Inhabited

/-- The fields of the ADC configuration word, each an enumerator held at its field's width (R38, R96). -/
structure ConfigFields where
  os : BitVec 1
  mux : BitVec 3
  pga : BitVec 3
  mode : BitVec 1
  dr : BitVec 3
  cmode : BitVec 1
  cpol : BitVec 1
  clat : BitVec 1
  cque : BitVec 2
deriving DecidableEq, Repr

/-- The ADC unit state `S.adc` (R23 to R28). -/
structure AdcState where
  phase : Phase
  deadline : Timestamp
  lastRead : Half
  cacheValid : Bool
  cacheChannel : BitVec 3
  pga : BitVec 3
  dr : BitVec 3
  cmode : BitVec 1
  cpol : BitVec 1
  clat : BitVec 1
  cque : BitVec 2
deriving DecidableEq, Repr

/-- A DAC channel configuration record, one entry of `S.dac.cfg` (R30). -/
structure DacChannel where
  pd : BitVec 2
  gain : BitVec 1
  vref : BitVec 1
deriving DecidableEq, Repr, Inhabited

/-- The DAC unit state `S.dac`: the configuration table of channels A to D (R30, R31). -/
structure DacState where
  cfg : Vector DacChannel 4
deriving DecidableEq, Repr

/-- The EEPROM unit state `S.ee` (R32, R33). -/
structure EeState where
  readyTime : Timestamp
deriving DecidableEq, Repr

/-- The typed return value of an operation, the `value` of `S.res` (R35). -/
inductive Value where
  /-- An enumerator, a latency in µs, a range in mV, or the value 0. -/
  | nat (n : Nat)
  /-- `true` or `false` of EE.CHECKSIG. -/
  | bool (b : Bool)
  /-- A `u8`: CODEC.CTRLBYTE. -/
  | byte (b : Byte)
  /-- A `u16`: CODEC.PACK, ADC.START. -/
  | word (w : Half)
  /-- An `i16` count: ADC.COMPLETE, ADC.READC. -/
  | count (c : Half)
  /-- A 12-bit count: DAC.CLAMP. -/
  | data12 (d : BitVec 12)
  /-- An exact rational number of volts: CODEC.VOLTS. -/
  | volts (q : Rat)
  /-- A byte sequence: CODEC.SIG, DAC.FRAME, DAC.WRITE. -/
  | bytes (bs : List Byte)
  /-- The nine enumerators of CODEC.UNPACK. -/
  | fields (f : ConfigFields)
  /-- The record of ADC.STATUS. -/
  | status (a : AdcState)
  /-- The mask of failed pages of EE.FORMAT and EE.INIT, bit `id` for page `id`. -/
  | mask (m : BitVec 128)
deriving DecidableEq, Repr

/-- The result record `S.res` (R35). -/
structure Result where
  ok : Bool
  err : ErrKind
  value : Value
deriving DecidableEq, Repr

/-- One event of the history that is the block's observation (R67): a bus transaction with its answer, a sleep, or
the result record of an operation. -/
inductive Event where
  | write (bus : BusId) (addr : BusAddr) (bytes : List Byte) (hold : Bool) (r : Int)
  | read (bus : BusId) (addr : BusAddr) (n : Nat) (hold : Bool) (r : Int) (data : List Byte)
  | sleep (t : Timestamp)
  | result (r : Result)
deriving DecidableEq, Repr

/-- What the host does to the block between operations (R250, R268). Reading PBUF and `S.res` changes nothing and is
no move: `State.memRead` and the field `res` give them. -/
inductive HostMove where
  /-- Present an operation (R90). -/
  | present (op : Operation)
  /-- `MemWrite(a, len(v), v)` on PBUF (R70). -/
  | memWrite (a : Nat) (v : List Byte)
deriving DecidableEq, Repr

/-- The reference ADC of R80: pointer, the four registers of R37, and the conversion in progress (when it ends and
the value it will leave). Bit 15 of `config` is not kept: it reads as R80 says. -/
structure RefAdc where
  ptr : BitVec 2
  conversion : Half
  config : Half
  thresholdLo : Half
  thresholdHi : Half
  inProgress : Option (Timestamp × Half)
deriving DecidableEq, Repr

/-- An input register of the reference DAC (R39, R81). -/
structure DacInput where
  data : BitVec 12
  control : BitVec 4
deriving DecidableEq, Repr, Inhabited

/-- The reference DAC of R81: one input register per channel A to D. -/
structure RefDac where
  input : Vector DacInput 4
deriving DecidableEq, Repr

/-- The reference EEPROM of R82: 4096 bytes, the address pointer, and the time at which the running write cycle ends
(none runs when the clock has reached it). -/
structure RefEeprom where
  mem : Memory
  ptr : BitVec 12
  busyUntil : Timestamp
deriving DecidableEq, Repr

/-- The reference devices of R80 to R82. -/
structure Devices where
  adc : RefAdc
  dac : RefDac
  eeprom : RefEeprom
deriving DecidableEq, Repr

/-- The environment of a run: the clock as last read (R262), the choices of the oracle that are known in advance, how
many choices have been made, and the reference devices where the oracle is restricted to them (R66). -/
structure Environment where
  /-- The clock `Now()`, at its last reading. -/
  clock : Timestamp
  /-- The next choices, first one first; past its end each choice is `Config.freeDraw` of `drawCount`. -/
  script : List Draw
  /-- How many choices have been made since reset. -/
  drawCount : Nat
  /-- `none`: the bus is the unrestricted oracle (R66). `some d`: it answers as the reference devices (R80 to R83). -/
  devices : Option Devices
deriving DecidableEq, Repr

/-- The state of one block instance and its environment. -/
structure State where
  /-- The parameters R8, fixed for the run. -/
  params : Params
  /-- `S.adc`. -/
  adc : AdcState
  /-- `S.dac`. -/
  dac : DacState
  /-- `S.ee`. -/
  ee : EeState
  /-- `S.pbuf`; an address that is not listed is unwritten (R34). -/
  pbuf : Memory
  /-- `S.res`. -/
  res : Result
  /-- The fault mark of R258, never cleared. -/
  faultMark : Bool
  /-- The refusal mark of R267, never cleared. -/
  refusalMark : Bool
  /-- What the host will do next, first move first. -/
  port : List HostMove
  /-- The event history R67, newest event first. -/
  history : List Event
  /-- The environment. -/
  env : Environment
deriving DecidableEq, Repr

/-- Why a run stops with a fault. -/
inductive Fault where
  /-- The model-level fault of R258, the only one: EE.WRITE read a PBUF byte that nothing has written. Raised by
  EE.WRITE, and again by every later step of the faulted state, which it carries with its fault mark set. Safe: the
  real block goes on with whatever its caller's buffer holds, and no claim about that can be proved here. -/
  | pbufUnwritten (final : State)
deriving DecidableEq, Repr

/-- Why a run stops with a refusal. -/
inductive Refusal where
  /-- An operation without a meaning in this model; no arm of `exec` is left with it. Safe: nothing is claimed of it. -/
  | notModelled (mnemonic : String)
  /-- The host port was given an operand record of the wrong shape for its code, which R93 says cannot be presented.
  Raised by the host port. Safe: no such presentation exists. -/
  | recordShape
  /-- The host port was given a PBUF write outside addresses 0 to 31, an access that R70 says does not exist "(refused
  at the host port)". Raised by the host port. Safe: no such access exists. -/
  | pbufRange
deriving DecidableEq, Repr

/-- `S.adc` after reset (R280). -/
def AdcState.reset : AdcState where
  phase := .idle
  deadline := 0
  lastRead := 0
  cacheValid := false
  cacheChannel := 0
  pga := 2
  dr := 4
  cmode := 0
  cpol := 0
  clat := 0
  cque := 3

/-- The block right after reset, idle and waiting for the host's first operation (R280, R281): no operation is
presented, no event has happened, and the environment is the unrestricted oracle. -/
def State.reset : State where
  params := Config.params
  adc := AdcState.reset
  dac := { cfg := #v[⟨0, 0, 0⟩, ⟨0, 0, 0⟩, ⟨0, 0, 0⟩, ⟨0, 0, 0⟩] }
  ee := { readyTime := 0 }
  pbuf := []
  res := { ok := true, err := .none, value := .nat 0 }
  faultMark := false
  refusalMark := false
  port := []
  history := []
  env := { clock := 0, script := [], drawCount := 0, devices := none }

end Sys2Proof.Machine
end

