-- ==== Sys2Proof/Machine/Parameters.lean ====
section
/-! DEFINITION. What follows from the parameters (spec/00_scope.md R8, R9): derived constants, the two tables keyed by
an enumerator, and the bus addresses; and the sizes that rules give as numbers. -/

namespace Sys2Proof.Machine

/-- The size of PBUF, which is also the length of every page transfer's data (R34, R70, R108, R109). -/
def pbufSize : Nat := 32

/-- The size of the reference EEPROM (R40, R82). -/
def refEepromSize : Nat := 4096

/-- R9 `EE_BYTES`. -/
def eeBytes (p : Params) : Nat := p.eePages * p.eePageSize

/-- R9 `SIG_LEN`. -/
def sigLen : Nat := 11

/-- R9 `ADC_REG_COUNT`. -/
def adcRegCount (p : Params) : Nat := if p.adcHasComparator then 4 else 2

/-- The sample rate of a DR code, in samples per second (R101). -/
def sampleRate (dr : Nat) : Nat :=
  match dr with
  | 0 => 8
  | 1 => 16
  | 2 => 32
  | 3 => 64
  | 4 => 128
  | 5 => 250
  | 6 => 475
  | _ => 860

/-- `LATENCY_US[dr]` (P18). -/
def latencyOf (p : Params) (dr : BitVec 3) : Nat := p.latencyUs[dr.toNat]'(by omega)

/-- `FSR_MV[pga]` for a PGA code 0 to 5 (P19). -/
def fsrOf (p : Params) (pga : Fin 6) : Nat := p.fsrMv[pga]

/-- A device's 7-bit bus address, `(nibble << 3) | cs` (R110). -/
def deviceAddr (nibble : BitVec 4) (cs : BitVec 3) : BusAddr :=
  (nibble.setWidth 7 <<< 3) ||| cs.setWidth 7

/-- `DAC_ADDR` (R9, R110). -/
def dacAddr (p : Params) : BusAddr := deviceAddr p.dacClassNibble p.dacSubaddr

/-- `EE_ADDR` (R9, R110). -/
def eeAddr (p : Params) : BusAddr := deviceAddr p.eeClassNibble p.eeCs

/-- The signature `SIG`: a zero byte, the pattern, a zero byte, the build date (R112, R146). -/
def signature (p : Params) : List Byte :=
  [0] ++ p.sigPattern.toList ++ [0] ++ p.buildDate.toList

end Sys2Proof.Machine
end

