-- ==== Sys2Proof/Machine/Operands.lean ====
section
/-! DEFINITION. Operand assembly and the encodings an operation computes (spec/30_encoding.md R96 to R114,
spec/40_codec.md R130): the saturating conversions, the DAC clamp, the channel and page checks, the ADC configuration
word, the DAC frame, the EEPROM byte address, and clock arithmetic. -/

namespace Sys2Proof.Machine

/-! ### Saturating conversions (R130) -/

/-- The saturating conversion to a field whose largest legal enumerator is `max`. -/
def saturate (max n : Nat) : Nat := min n max

/-- `numberTo_OS`. -/
def numberToOs (n : Nat) : Nat := saturate 1 n
/-- `numberTo_MUX`. -/
def numberToMux (n : Nat) : Nat := saturate 7 n
/-- `numberTo_PGA`: six legal values in three bits. -/
def numberToPga (n : Nat) : Nat := saturate 5 n
/-- `numberTo_MODE`. -/
def numberToMode (n : Nat) : Nat := saturate 1 n
/-- `numberTo_DR`. -/
def numberToDr (n : Nat) : Nat := saturate 7 n
/-- `numberTo_COMP_MODE`. -/
def numberToCmode (n : Nat) : Nat := saturate 1 n
/-- `numberTo_COMP_POL`. -/
def numberToCpol (n : Nat) : Nat := saturate 1 n
/-- `numberTo_COMP_LAT`. -/
def numberToClat (n : Nat) : Nat := saturate 1 n
/-- `numberTo_COMP_QUE`. -/
def numberToCque (n : Nat) : Nat := saturate 3 n
/-- `numberTo_PD`. -/
def numberToPd (n : Nat) : Nat := saturate 3 n
/-- `numberTo_GAIN`. -/
def numberToGain (n : Nat) : Nat := saturate 1 n
/-- `numberTo_VREF`. -/
def numberToVref (n : Nat) : Nat := saturate 1 n
/-- `numberTo_DACCH`: codes 0 to 3 are channels A to D, 4 is the sentinel NONE. -/
def numberToDacch (n : Nat) : Nat := saturate 4 n

/-- The DAC channel an operand names; `none` for the "not a channel" sentinel (R105). -/
def dacChannelOf (ch : Nat) : Option (Fin 4) :=
  if h : numberToDacch ch < 4 then some ⟨numberToDacch ch, h⟩ else none

/-- The PGA code an operand names, one of the six legal ones (R99, R114). -/
def pgaOf (n : Nat) : Fin 6 := ⟨numberToPga n, by simp only [numberToPga, saturate]; omega⟩

/-- The DR code an operand names (R101, R114). -/
def drOf (n : Nat) : BitVec 3 := BitVec.ofNat 3 (numberToDr n)

/-- The MUX code an operand names (R98, R114). -/
def muxOf (ch : Nat) : BitVec 3 := BitVec.ofNat 3 (numberToMux ch)

/-- The MODE code an operand names (R100, R114). -/
def modeOf (mode : Nat) : BitVec 1 := BitVec.ofNat 1 (numberToMode mode)

/-- A DAC channel record from operands (R30, R104, R114). -/
def dacChannelRecord (pd gain vref : Nat) : DacChannel where
  pd := BitVec.ofNat 2 (numberToPd pd)
  gain := BitVec.ofNat 1 (numberToGain gain)
  vref := BitVec.ofNat 1 (numberToVref vref)

/-- `Clamp12` (R200). -/
def clamp12 (p : Params) (x : Int) : BitVec 12 := BitVec.ofInt 12 (min (max x 0) p.dacMax)

/-! ### The ADC configuration word (R96, R131, R132) -/

/-- The fields of CODEC.PACK's operands, each saturated (R131). -/
def fieldsOfNumbers (os mux pga mode dr cmode cpol clat cque : Nat) : ConfigFields where
  os := BitVec.ofNat 1 (numberToOs os)
  mux := muxOf mux
  pga := BitVec.ofNat 3 (numberToPga pga)
  mode := modeOf mode
  dr := drOf dr
  cmode := BitVec.ofNat 1 (numberToCmode cmode)
  cpol := BitVec.ofNat 1 (numberToCpol cpol)
  clat := BitVec.ofNat 1 (numberToClat clat)
  cque := BitVec.ofNat 2 (numberToCque cque)

/-- The 16-bit word of a record of fields (R96, R131). -/
def packFields (f : ConfigFields) : Half :=
  (f.os.setWidth 16 <<< 15) ||| (f.mux.setWidth 16 <<< 12) ||| (f.pga.setWidth 16 <<< 9)
    ||| (f.mode.setWidth 16 <<< 8) ||| (f.dr.setWidth 16 <<< 5) ||| (f.cmode.setWidth 16 <<< 4)
    ||| (f.cpol.setWidth 16 <<< 3) ||| (f.clat.setWidth 16 <<< 2) ||| f.cque.setWidth 16

/-- The fields of a 16-bit word; PGA codes 6 and 7 read as 5 (R132). -/
def unpackWord (w : Half) : ConfigFields where
  os := w.extractLsb' 15 1
  mux := w.extractLsb' 12 3
  pga := BitVec.ofNat 3 (numberToPga (w.extractLsb' 9 3).toNat)
  mode := w.extractLsb' 8 1
  dr := w.extractLsb' 5 3
  cmode := w.extractLsb' 4 1
  cpol := w.extractLsb' 3 1
  clat := w.extractLsb' 2 1
  cque := w.extractLsb' 0 2

/-! ### Bytes on the wire -/

/-- Bits 15 to 8 of a word. -/
def hiByte (w : Half) : Byte := w.extractLsb' 8 8

/-- Bits 7 to 0 of a word. -/
def loByte (w : Half) : Byte := w.extractLsb' 0 8

/-- The big-endian composition of two bytes, high byte first (R11, R72). -/
def halfOfBytes (hi lo : Byte) : Half := hi ++ lo

/-- A word as two bytes, most significant first (R72). -/
def bytesOfHalf (w : Half) : List Byte := [hiByte w, loByte w]

/-- The word of the first two bytes of a read, `none` for fewer (R171). -/
def halfOfRead : List Byte → Option Half
  | hi :: lo :: _ => some (halfOfBytes hi lo)
  | _ => none

/-- The ADC pointer byte: the register address in bits 1:0, zeros above (R107). -/
def adcPointerByte (reg : BitVec 2) : Byte := reg.setWidth 8

/-- The three-byte multi-write frame of a channel (R103, R201). -/
def dacFrame (p : Params) (c : Fin 4) (k : DacChannel) (d : BitVec 12) : List Byte :=
  [ (p.dacCmdMultiwrite.setWidth 8 <<< 3) ||| (BitVec.ofNat 8 c.val <<< 1) ||| p.dacUdac.setWidth 8,
    (k.vref.setWidth 8 <<< 7) ||| (k.pd.setWidth 8 <<< 5) ||| (k.gain.setWidth 8 <<< 4)
      ||| (d.extractLsb' 8 4).setWidth 8,
    d.extractLsb' 0 8 ]

/-- `PageAddr(id)`, the byte address of a valid page (R220). -/
def pageAddr (p : Params) (id : Nat) : Half := BitVec.ofNat 16 (id * p.eePageSize)

/-- The two address bytes of a page, high byte first (R72, R108, R109). -/
def pageAddrBytes (p : Params) (id : Nat) : List Byte := bytesOfHalf (pageAddr p id)

/-! ### Clock arithmetic (R262) -/

/-- `Now() + d`, modulo 2^64. -/
def timeAfter (t : Timestamp) (d : Nat) : Timestamp := t + BitVec.ofNat 64 d

/-- The clock moved on by `d` µs. It stops at the largest timestamp, so it never goes back; a run stays below that by
the launch premise of R262 (log entry 3). -/
def clockForward (t : Timestamp) (d : Nat) : Timestamp := BitVec.ofNat 64 (min (t.toNat + d) (2 ^ 64 - 1))

/-- The later of two timestamps. -/
def laterOf (t u : Timestamp) : Timestamp := if t.toNat ≤ u.toNat then u else t

end Sys2Proof.Machine
end

