-- ==== Sys2Proof/Machine/Memory.lean ====
section
/-! DEFINITION. The two byte memories: PBUF (spec/10_state.md R34, spec/20_memory.md R70), where an address that is
not listed is unwritten, and the array of the reference EEPROM (spec/20_memory.md R82), where it reads as
`Memory.erased`. Both keep one canonical form, so that equal memories are equal lists. -/

namespace Sys2Proof.Machine

/-- The byte listed at an address. -/
def Memory.lookup (m : Memory) (a : Nat) : Option Byte :=
  match m with
  | [] => none
  | c :: rest => if c.1 = a then some c.2 else Memory.lookup rest a

/-- The memory with the byte at an address set. -/
def Memory.insert (m : Memory) (a : Nat) (v : Byte) : Memory :=
  match m with
  | [] => [(a, v)]
  | c :: rest =>
    if a < c.1 then (a, v) :: c :: rest
    else if a = c.1 then (a, v) :: rest
    else c :: Memory.insert rest a v

/-- The memory without an entry at an address. -/
def Memory.erase (m : Memory) (a : Nat) : Memory :=
  match m with
  | [] => []
  | c :: rest => if c.1 = a then rest else c :: Memory.erase rest a

/-- Addresses strictly rising, the first above `lo` and all below `size`. -/
def Memory.risingFrom (lo size : Nat) (m : Memory) : Bool :=
  match m with
  | [] => true
  | c :: rest => decide (lo ≤ c.1) && decide (c.1 < size) && Memory.risingFrom (c.1 + 1) size rest

/-! ### PBUF -/

/-- PBUF's canonical form: rising addresses, all of them 0 to 31. An unlisted byte is unwritten and has no value, so
no entry can repeat it. -/
def Memory.wf (m : Memory) : Bool := Memory.risingFrom 0 pbufSize m

/-- `MemWrite(a, n, v)`: the bytes of `v` from address `a` on, first byte at `a` (R70). -/
def Memory.writeBytes (m : Memory) (a : Nat) (v : List Byte) : Memory :=
  match v with
  | [] => m
  | b :: bs => Memory.writeBytes (m.insert a b) (a + 1) bs

/-- The `n` bytes from address `a` on, if every one of them is written. -/
def Memory.readBytes (m : Memory) (a n : Nat) : Option (List Byte) :=
  match n with
  | 0 => some []
  | k + 1 =>
    match m.lookup a, Memory.readBytes m (a + 1) k with
    | some b, some bs => some (b :: bs)
    | _, _ => none

/-! ### The array of the reference EEPROM -/

/-- What a byte of the reference EEPROM that nothing has written reads as (log entry 7). -/
def Memory.erased : Byte := 0xFF

/-- The byte of the reference EEPROM at an address. -/
def Memory.eeByte (m : Memory) (a : Nat) : Byte := (m.lookup a).getD Memory.erased

/-- The reference EEPROM with a byte set, in canonical form. -/
def Memory.eeSet (m : Memory) (a : Nat) (v : Byte) : Memory :=
  if v = Memory.erased then m.erase a else m.insert a v

/-- The canonical form of the EEPROM's array: rising addresses below 4096, no entry equal to an erased byte. -/
def Memory.eeWf (m : Memory) : Bool :=
  Memory.risingFrom 0 refEepromSize m && m.all fun c => decide (c.2 ≠ Memory.erased)

end Sys2Proof.Machine
end

