-- ==== Sys2Proof/Machine/Devices.lean ====
section
/-! DEFINITION. The reference devices (spec/20_memory.md R80 to R83; their registers, spec/10_state.md R37 to R40).
They are not part of the block and not normative: a state whose environment has no devices uses the unrestricted
oracle (R66). What R80 to R82 do not give (the answer to a transaction of another shape, how long a conversion or a
write cycle takes, the value converted, the negative code) is a choice of the environment, taken from the draw of the
transaction. `t0` is the clock when a transaction begins and `t1` when it has ended. -/

namespace Sys2Proof.Machine

/-- A transfer result within R61's limits for a transaction of `len` bytes: at most `len`, or a negative `i32`. -/
def transferResult (raw : Int) (len : Nat) : Int := max (-(2 ^ 31)) (min raw len)

/-- A negative result, its value a choice (R61). -/
def negativeResult (d : Draw) : Int := max (-(2 ^ 31)) (-1 - (d.result.natAbs : Int))

/-- `n` bytes of a draw (at most 32, the longest read the block issues). -/
def drawnBytes (d : Draw) (n : Nat) : List Byte := d.data.toList.take n

/-! ### ADC (R80) -/

/-- The shortest time a conversion of a DR code takes, in whole µs: one sample period (R80, R150). -/
def conversionMinUs (dr : Nat) : Nat := (1000000 + sampleRate dr - 1) / sampleRate dr

/-- When a conversion started by writing `w` ends: a choice between the theoretical time and the latency. -/
def RefAdc.conversionEnd (p : Params) (w : Half) (t1 : Timestamp) (d : Draw) : Timestamp :=
  let dr := (unpackWord w).dr
  clockForward t1 (max (conversionMinUs dr.toNat) (min d.result.natAbs (latencyOf p dr)))

/-- The ADC at time `t`: a conversion that has ended has left its value in register 0b00. -/
def RefAdc.atTime (a : RefAdc) (t : Timestamp) : RefAdc :=
  match a.inProgress with
  | some (e, v) => if e.toNat ≤ t.toNat then { a with conversion := v, inProgress := none } else a
  | none => a

/-- The register a pointer value selects; OS (bit 15 of register 0b01) reads 0 while a conversion runs. -/
def RefAdc.register (a : RefAdc) (p : BitVec 2) : Half :=
  match p.toNat with
  | 0 => a.conversion
  | 1 => if a.inProgress.isNone then a.config ||| 0x8000 else a.config &&& 0x7FFF
  | 2 => a.thresholdLo
  | _ => a.thresholdHi

/-- A register write: register 0b00 ignores it, and a 1 in bit 15 of register 0b01 starts a conversion. -/
def RefAdc.setRegister (a : RefAdc) (ps : Params) (p : BitVec 2) (w : Half) (t1 : Timestamp) (d : Draw) : RefAdc :=
  match p.toNat with
  | 0 => a
  | 1 =>
    { a with
      config := w
      inProgress :=
        if w.getLsbD 15 then
          some (RefAdc.conversionEnd ps w t1 d, halfOfBytes d.data[0] d.data[1])
        else a.inProgress }
  | 2 => { a with thresholdLo := w }
  | _ => { a with thresholdHi := w }

/-- A write transaction to the ADC. -/
def RefAdc.write (a : RefAdc) (ps : Params) (t0 t1 : Timestamp) (d : Draw) (bytes : List Byte) : Int × RefAdc :=
  let a0 := a.atTime t0
  match bytes with
  | [p] => (1, { a0 with ptr := p.setWidth 2 })
  | [p, hi, lo] =>
    (3, { a0 with ptr := p.setWidth 2 }.setRegister ps (p.setWidth 2) (halfOfBytes hi lo) t1 d)
  | _ => (transferResult d.result bytes.length, a0)

/-- A read transaction from the ADC. DESIGN CHOICE (log entry 6): R38 and R80 do not say at which moment of a transaction
the ADC decides that a conversion has ended, and it is when the transaction begins, in a write too. -/
def RefAdc.read (a : RefAdc) (t0 : Timestamp) (d : Draw) (n : Nat) : Int × List Byte × RefAdc :=
  let a0 := a.atTime t0
  if n = 2 then (2, bytesOfHalf (a0.register a0.ptr), a0)
  else (transferResult d.result n, drawnBytes d n, a0)

/-- The ADC's registers at power-on: the four registers as R37 gives them. DESIGN CHOICE (log entry 6): R37 and R80 give
the pointer no value, and it is 0 here. -/
def RefAdc.powerOn : RefAdc where
  ptr := 0
  conversion := 0x0000
  config := 0x8583
  thresholdLo := 0x8000
  thresholdHi := 0x7FFF
  inProgress := none

/-! ### DAC (R81) -/

/-- A write transaction to the DAC: a multi-write frame sets one channel's input register. -/
def RefDac.write (a : RefDac) (ps : Params) (d : Draw) (bytes : List Byte) : Int × RefDac :=
  match bytes with
  | [b0, b1, b2] =>
    if b0.extractLsb' 3 5 = ps.dacCmdMultiwrite then
      (3, { input := a.input.set (b0.extractLsb' 1 2).toNat
              { data := b1.extractLsb' 0 4 ++ b2, control := b1.extractLsb' 4 4 } })
    else (transferResult d.result 3, a)
  | _ => (transferResult d.result bytes.length, a)

/-! ### EEPROM (R82) -/

/-- Whether a write cycle runs at time `t`: every transaction is then refused. -/
def RefEeprom.busy (e : RefEeprom) (t : Timestamp) : Bool := decide (t.toNat < e.busyUntil.toNat)

/-- The address the `i`-th data byte of a page write goes to: it wraps within the page of `base`. -/
def RefEeprom.cellAddr (base : Half) (i : Nat) : Nat :=
  ((base &&& 0x0FE0) ||| ((base + BitVec.ofNat 16 i) &&& 0x001F)).toNat

/-- The array after the data bytes of a page write, the first of them the `i`-th. -/
def RefEeprom.store (m : Memory) (base : Half) (i : Nat) (data : List Byte) : Memory :=
  match data with
  | [] => m
  | b :: bs => RefEeprom.store (m.eeSet (RefEeprom.cellAddr base i) b) base (i + 1) bs

/-- `n` bytes from address `a` on, addresses modulo 4096. -/
def RefEeprom.load (m : Memory) (a n : Nat) : List Byte :=
  match n with
  | 0 => []
  | k + 1 => m.eeByte (a % refEepromSize) :: RefEeprom.load m (a + 1) k

/-- A write transaction to the EEPROM: the probe, the address of a read, or a page write. -/
def RefEeprom.write (e : RefEeprom) (ps : Params) (t0 t1 : Timestamp) (d : Draw) (bytes : List Byte) : Int × RefEeprom :=
  if e.busy t0 then (negativeResult d, e)
  else
    match bytes with
    | [] => (0, e)
    | [_] => (transferResult d.result 1, e)
    | [ah, al] => (2, { e with ptr := (halfOfBytes ah al).setWidth 12 })
    | ah :: al :: b :: bs =>
      ((bs.length + 3 : Nat),
        { e with
          mem := RefEeprom.store e.mem (halfOfBytes ah al) 0 (b :: bs)
          busyUntil := clockForward t1 (min d.result.natAbs ps.eeSettleUs) })

/-- A read transaction from the EEPROM. -/
def RefEeprom.read (e : RefEeprom) (t0 : Timestamp) (d : Draw) (n : Nat) : Int × List Byte × RefEeprom :=
  if e.busy t0 then (negativeResult d, drawnBytes d n, e)
  else (n, RefEeprom.load e.mem e.ptr.toNat n, { e with ptr := e.ptr + BitVec.ofNat 12 n })

/-! ### The bus with the reference devices on it (R83) -/

/-- A write transaction: the device at the address answers, and a negative result where there is none. -/
def Devices.write (v : Devices) (p : Params) (t0 t1 : Timestamp) (d : Draw) (bus : BusId) (addr : BusAddr)
    (bytes : List Byte) : Int × Devices :=
  if bus = p.adcBus ∧ addr = p.adcAddr then
    let a := v.adc.write p t0 t1 d bytes
    (a.1, { v with adc := a.2 })
  else if bus = p.dacBus ∧ addr = dacAddr p then
    let a := v.dac.write p d bytes
    (a.1, { v with dac := a.2 })
  else if bus = p.eeBus ∧ addr = eeAddr p then
    let a := v.eeprom.write p t0 t1 d bytes
    (a.1, { v with eeprom := a.2 })
  else (negativeResult d, v)

/-- A read transaction. The reference DAC is never read (R39): its answer is a choice. -/
def Devices.read (v : Devices) (p : Params) (t0 : Timestamp) (d : Draw) (bus : BusId) (addr : BusAddr) (n : Nat) :
    Int × List Byte × Devices :=
  if bus = p.adcBus ∧ addr = p.adcAddr then
    let a := v.adc.read t0 d n
    (a.1, a.2.1, { v with adc := a.2.2 })
  else if bus = p.dacBus ∧ addr = dacAddr p then (transferResult d.result n, drawnBytes d n, v)
  else if bus = p.eeBus ∧ addr = eeAddr p then
    let a := v.eeprom.read t0 d n
    (a.1, a.2.1, { v with eeprom := a.2.2 })
  else (negativeResult d, drawnBytes d n, v)

end Sys2Proof.Machine
end

