-- ==== Sys2Proof/Machine/Flags.lean ====
section
/-! DEFINITION. How an operation ends. The block has no condition codes; what a host can test is `S.res.ok` and
`S.res.err` (spec/10_state.md R35, R36), written by `return` and `raise` (spec/60_exceptions.md R251), which stand in
for the exceptions the block does not have (R259, R260). -/

namespace Sys2Proof.Machine

/-- The numeric code of an error kind (R252). -/
def ErrKind.code : ErrKind → Nat
  | .none => 0
  | .bus => 1
  | .mismatch => 2
  | .notReady => 3
  | .busy => 4
  | .pending => 5
  | .notConverting => 6
  | .badOperand => 7
  | .partialFail => 8
  | .sigMismatch => 9
  | .badOpcode => 10

/-- The numeric code of a conversion phase (R23, R177). -/
def Phase.code : Phase → Nat
  | .idle => 0
  | .converting => 1
  | .ready => 2
  | .error => 3

/-- The result record of `return v` (R251). -/
def Result.success (v : Value) : Result := { ok := true, err := .none, value := v }

/-- The result record of `raise e(v)` (R251). -/
def Result.failure (e : ErrKind) (v : Value) : Result := { ok := false, err := e, value := v }

/-- An event enters the history (R67). -/
def State.log (s : State) (e : Event) : State := { s with history := e :: s.history }

/-- The last action of an operation: it writes `S.res`, which enters the history (R35, R67). -/
def State.finish (s : State) (r : Result) : State := { s with res := r }.log (.result r)

/-- `return v`. -/
def State.ret (s : State) (v : Value) : State := s.finish (Result.success v)

/-- `raise e(v)`. What the operation wrote before stays (R251). -/
def State.raise (s : State) (e : ErrKind) (v : Value) : State := s.finish (Result.failure e v)

/-- An operation ends with what its steps gave: `return` of a value or `raise` of a kind with value 0. -/
def State.conclude (s : State) (r : Except ErrKind Value) : State :=
  match r with
  | .ok v => s.ret v
  | .error e => s.raise e (.nat 0)

/-- The end of an operation whose steps gave `r.1` and left the state `r.2`. -/
def endOperation (r : Except ErrKind Value × State) : State := r.2.conclude r.1

/-- The answer to a reserved code: BAD_OPCODE, the refusal mark, and nothing else (R93, R267). -/
def State.refuseCode (s : State) : State :=
  { s with refusalMark := true }.raise .badOpcode (.nat 0)

/-- The faulted state of R258: nothing but the mark, which is never cleared. -/
def State.faulted (s : State) : State := { s with faultMark := true }

end Sys2Proof.Machine
end

