-- ==== Sys2Proof/Machine/Ops.lean ====
section
/-! DEFINITION. The operations the meanings share: the choices of the environment, the clock and the sleep
(spec/60_exceptions.md R262, R263), the bus port (spec/20_memory.md R60 to R69), the host's access to PBUF (R70), and
the updates of the units' state. -/

namespace Sys2Proof.Machine

/-! ### The environment -/

/-- The next choice of the environment: the script's, or a free one (R14, R66). -/
def State.nextDraw (s : State) : Draw :=
  match s.env.script with
  | d :: _ => d
  | [] => Config.freeDraw s.env.drawCount

/-- The state after a choice was made. -/
def State.afterDraw (s : State) : State :=
  { s with env := { s.env with script := s.env.script.tail, drawCount := s.env.drawCount + 1 } }

/-- The clock set. -/
def State.setClock (s : State) (t : Timestamp) : State := { s with env := { s.env with clock := t } }

/-- The devices set. -/
def State.setDevices (s : State) (v : Option Devices) : State := { s with env := { s.env with devices := v } }

/-- The state after `Now()`, whose value is then its clock: each read is a choice, not before the last one (R262). -/
def State.readClock (s : State) : State := s.afterDraw.setClock (clockForward s.env.clock s.nextDraw.advance)

/-- `SleepUntil(t)`: the clock is then at `t` or later, how much later is a choice (R263). -/
def State.sleepUntil (s : State) (t : Timestamp) : State :=
  (s.afterDraw.setClock (clockForward (laterOf s.env.clock t) s.nextDraw.advance)).log (.sleep t)

/-- The bytes of `Draw<n bytes>()`, `n` at most 32. The state after it is `afterDraw`. -/
def State.drawBytes (s : State) (n : Nat) : List Byte := drawnBytes s.nextDraw n

/-! ### The bus port -/

/-- The clock when the next transaction has ended: it takes at most the timeout plus the transfer time (R64). -/
def State.transferEnd (s : State) : Timestamp :=
  clockForward s.env.clock (min s.nextDraw.advance (s.params.busTimeoutUs + s.params.transferUs))

/-- What the bus answers to a write transaction: the oracle's choice (R61, R66), or the reference devices'. -/
def State.writeAnswer (s : State) (bus : BusId) (addr : BusAddr) (bytes : List Byte) : Int × Option Devices :=
  match s.env.devices with
  | none => (transferResult s.nextDraw.result bytes.length, none)
  | some v =>
    let a := v.write s.params s.env.clock s.transferEnd s.nextDraw bus addr bytes
    (a.1, some a.2)

/-- What the bus answers to a read transaction (R62). -/
def State.readAnswer (s : State) (bus : BusId) (addr : BusAddr) (n : Nat) : Int × List Byte × Option Devices :=
  match s.env.devices with
  | none => (transferResult s.nextDraw.result n, drawnBytes s.nextDraw n, none)
  | some v =>
    let a := v.read s.params s.env.clock s.nextDraw bus addr n
    (a.1, a.2.1, some a.2.2)

/-- `BusWrite(bus, addr7, bytes, hold)` (R61, R63, R64): one transaction, blocking, its result and the state after. -/
def State.busWrite (s : State) (bus : BusId) (addr : BusAddr) (bytes : List Byte) (hold : Bool) : Int × State :=
  let a := s.writeAnswer bus addr bytes
  (a.1, ((s.afterDraw.setClock s.transferEnd).setDevices a.2).log (.write bus addr bytes hold a.1))

/-- `BusRead(bus, addr7, n, hold)` (R62, R64): its result, the data, and the state after. -/
def State.busRead (s : State) (bus : BusId) (addr : BusAddr) (n : Nat) (hold : Bool) : Int × List Byte × State :=
  let a := s.readAnswer bus addr n
  (a.1, a.2.1, ((s.afterDraw.setClock s.transferEnd).setDevices a.2.2).log (.read bus addr n hold a.1 a.2.1))

/-! ### Updates of the units' state -/

/-- `S.adc.phase <- p`. -/
def State.setPhase (s : State) (p : Phase) : State := { s with adc := { s.adc with phase := p } }

/-- `S.adc.deadline <- t`. -/
def State.setDeadline (s : State) (t : Timestamp) : State := { s with adc := { s.adc with deadline := t } }

/-- `S.adc.cacheValid <- false`. -/
def State.dropCache (s : State) : State := { s with adc := { s.adc with cacheValid := false } }

/-- A completed conversion of channel `c` with result `v` (R173). -/
def State.keepConversion (s : State) (c : BitVec 3) (v : Half) : State :=
  { s with adc := { s.adc with phase := .ready, lastRead := v, cacheValid := true, cacheChannel := c } }

/-- The shadow fields set (R175). -/
def State.setShadow (s : State) (pga dr : BitVec 3) (cmode cpol clat : BitVec 1) (cque : BitVec 2) : State :=
  { s with adc := { s.adc with pga := pga, dr := dr, cmode := cmode, cpol := cpol, clat := clat, cque := cque } }

/-- `S.dac.cfg[c] <- k`. -/
def State.setDacChannel (s : State) (c : Fin 4) (k : DacChannel) : State :=
  { s with dac := { cfg := s.dac.cfg.set c.val k } }

/-- `S.ee.readyTime <- t`. -/
def State.setReadyTime (s : State) (t : Timestamp) : State := { s with ee := { readyTime := t } }

/-- PBUF set. -/
def State.setPbuf (s : State) (m : Memory) : State := { s with pbuf := m }

/-! ### The host's access to PBUF (R70) -/

/-- `MemRead(a, n)`, each byte as it is, `none` where it is unwritten; an access outside 0 to 31 does not exist. -/
def State.memRead (s : State) (a n : Nat) : Option (List (Option Byte)) :=
  if a + n ≤ pbufSize then some ((List.range n).map fun i => s.pbuf.lookup (a + i)) else none

/-- `MemWrite(a, len(v), v)`, refused outside 0 to 31. -/
def State.memWrite (s : State) (a : Nat) (v : List Byte) : Host.Outcome State Fault Refusal :=
  if a + v.length ≤ pbufSize then .next (s.setPbuf (s.pbuf.writeBytes a v)) else .refused .pbufRange

/-- The port after the host's first move was taken. -/
def State.afterMove (s : State) : State := { s with port := s.port.tail }

end Sys2Proof.Machine
end

