-- ==== Sys2Proof/Machine/Adc.lean ====
section
/-! DEFINITION. The ADC unit: register access and the conversion-state machine (spec/41_adc.md). The steps of ADC.START
and ADC.COMPLETE are definitions of their own, because ADC.READC performs them too (R176); they give the value to
return or the kind to raise, and the state they leave. -/

namespace Sys2Proof.Machine

/-- `AdcWriteReg(P, v)`: whether the device took all three bytes, and the state after (R106, R170). -/
def State.adcWriteReg (s : State) (reg : BitVec 2) (v : Half) : Bool × State :=
  let w := s.busWrite s.params.adcBus s.params.adcAddr (adcPointerByte reg :: bytesOfHalf v) false
  (decide (w.1 = 3), w.2)

/-- `AdcReadReg(P)`: the register's value, `none` when either transaction fell short, and the state after (R106,
R171). The read is issued only when the pointer write was taken. -/
def State.adcReadReg (s : State) (reg : BitVec 2) : Option Half × State :=
  let w := s.busWrite s.params.adcBus s.params.adcAddr [adcPointerByte reg] true
  if w.1 = 1 then
    let r := w.2.busRead s.params.adcBus s.params.adcAddr 2 false
    if r.1 = 2 then (halfOfRead r.2.1, r.2.2) else (none, r.2.2)
  else (none, w.2)

/-- The comparator bits of the configuration word: the shadow fields, or `COMP_DEFAULT` on the base variant (R174). -/
def State.comparatorBits (s : State) : BitVec 5 :=
  if s.params.adcHasComparator then
    (s.adc.cmode.setWidth 5 <<< 4) ||| (s.adc.cpol.setWidth 5 <<< 3) ||| (s.adc.clat.setWidth 5 <<< 2)
      ||| s.adc.cque.setWidth 5
  else s.params.compDefault

/-- `StartWord(c, md)`, the configuration word ADC.START writes (R174). -/
def State.startWord (s : State) (c : BitVec 3) (md : BitVec 1) : Half :=
  (1 <<< 15) ||| (c.setWidth 16 <<< 12) ||| (s.adc.pga.setWidth 16 <<< 9) ||| (md.setWidth 16 <<< 8)
    ||| (s.adc.dr.setWidth 16 <<< 5) ||| s.comparatorBits.setWidth 16

/-- `S.adc.deadline <- Now() + LATENCY_US[S.adc.dr]` (R172, R173, R176). -/
def State.armDeadline (s : State) : State :=
  s.readClock.setDeadline (timeAfter s.readClock.env.clock (latencyOf s.params s.adc.dr))

/-- The steps of ADC.START (R172). -/
def State.startSteps (s : State) (c : BitVec 3) (md : BitVec 1) : Except ErrKind Value × State :=
  if s.adc.phase = .converting then (.error .busy, s)
  else
    let w := s.dropCache.adcWriteReg 0b01 (s.startWord c md)
    if w.1 then (.ok (.word (s.startWord c md)), w.2.armDeadline.setPhase .converting)
    else (.error .bus, w.2.setPhase .error)

/-- The attempts of ADC.COMPLETE, at most `tries` of them (R173). The channel is checked before the status. -/
def State.completeAttempts (s : State) (c : BitVec 3) (tries : Nat) : Except ErrKind Value × State :=
  match tries with
  | 0 => (.error .pending, s)
  | left + 1 =>
    let cfg := (s.sleepUntil s.adc.deadline).adcReadReg 0b01
    match cfg.1 with
    | none => (.error .bus, cfg.2.setPhase .error)
    | some w =>
      if (unpackWord w).mux ≠ c then (.error .mismatch, cfg.2.setPhase .error)
      else if (unpackWord w).os = 1 then
        let conv := cfg.2.adcReadReg 0b00
        match conv.1 with
        | none => (.error .bus, conv.2.setPhase .error)
        | some v => (.ok (.count v), conv.2.keepConversion c v)
      else if 0 < left ∧ s.params.adcRetryRearm = true then State.completeAttempts cfg.2.armDeadline c left
      else State.completeAttempts cfg.2 c left

/-- The steps of ADC.COMPLETE (R173). -/
def State.completeSteps (s : State) (c : BitVec 3) : Except ErrKind Value × State :=
  if s.adc.phase = .converting then s.completeAttempts c s.params.adcCompleteTries else (.error .notConverting, s)

/-- The state in which ADC.READC decides whether the cache answers: it reads the clock only where everything else
speaks for the cache (R176). -/
def State.cacheChecked (s : State) (c : BitVec 3) (force : Bool) : State :=
  if !force && s.adc.cacheValid && decide (s.adc.cacheChannel = c) then s.readClock else s

/-- Whether the cache answers ADC.READC: not forced, valid, the same channel, and before the deadline (R176). -/
def State.cacheHit (s : State) (c : BitVec 3) (force : Bool) : Bool :=
  !force && s.adc.cacheValid && decide (s.adc.cacheChannel = c)
    && decide ((s.cacheChecked c force).env.clock.toNat < s.adc.deadline.toNat)

/-- The embedded START of ADC.READC, in single-shot mode, skipped while a conversion is pending (R176). -/
def State.startIfIdle (s : State) (c : BitVec 3) : Except ErrKind Value × State :=
  if s.adc.phase = .converting then (.ok (.nat 0), s) else s.startSteps c 1

/-- The steps of ADC.READC when the cache does not answer (R176). -/
def State.refreshSteps (s : State) (c : BitVec 3) : Except ErrKind Value × State :=
  match s.startIfIdle c with
  | (.error e, s1) => (.error e, s1)
  | (.ok _, s1) =>
    match s1.completeSteps c with
    | (.error e, s2) => (.error e, s2)
    | (.ok _, s2) => (.ok (.count s2.adc.lastRead), s2.armDeadline)

/-- ADC.CONFIG (R175). -/
def execAdcConfig (pga dr cmode cpol clat cque : Nat) (s : State) : Host.Outcome State Fault Refusal :=
  if s.adc.phase = .converting then .next (s.raise .busy (.nat 0))
  else
    .next (((s.setShadow (BitVec.ofNat 3 (numberToPga pga)) (drOf dr)
      (BitVec.ofNat 1 (numberToCmode cmode)) (BitVec.ofNat 1 (numberToCpol cpol))
      (BitVec.ofNat 1 (numberToClat clat)) (BitVec.ofNat 2 (numberToCque cque))).dropCache).ret (.nat 0))

/-- ADC.START (R172). -/
def execAdcStart (ch mode : Nat) (s : State) : Host.Outcome State Fault Refusal :=
  .next (endOperation (s.startSteps (muxOf ch) (modeOf mode)))

/-- ADC.COMPLETE (R173). -/
def execAdcComplete (ch : Nat) (s : State) : Host.Outcome State Fault Refusal :=
  .next (endOperation (s.completeSteps (muxOf ch)))

/-- ADC.READC (R176). -/
def execAdcReadc (ch : Nat) (force : Bool) (s : State) : Host.Outcome State Fault Refusal :=
  .next (if s.cacheHit (muxOf ch) force then (s.cacheChecked (muxOf ch) force).ret (.count s.adc.lastRead)
    else endOperation ((s.cacheChecked (muxOf ch) force).refreshSteps (muxOf ch)))

/-- ADC.STATUS (R177). -/
def execAdcStatus (s : State) : Host.Outcome State Fault Refusal := .next (s.ret (.status s.adc))

end Sys2Proof.Machine
end

