-- ==== Sys2Proof/Machine/Codec.lean ====
section
/-! DEFINITION. The codec unit (spec/40_codec.md): every operation is pure, reads no state but the parameters, writes
none but `S.res`, issues no transaction and cannot fail. -/

namespace Sys2Proof.Machine

/-- CODEC.PACK (R131). -/
def execCodecPack (os mux pga mode dr cmode cpol clat cque : Nat) (s : State) : Host.Outcome State Fault Refusal :=
  .next (s.ret (.word (packFields (fieldsOfNumbers os mux pga mode dr cmode cpol clat cque))))

/-- CODEC.UNPACK (R132). -/
def execCodecUnpack (word : Half) (s : State) : Host.Outcome State Fault Refusal :=
  .next (s.ret (.fields (unpackWord word)))

/-- CODEC.NUM2OS (R133). -/
def execCodecNum2os (n : Nat) (s : State) : Host.Outcome State Fault Refusal := .next (s.ret (.nat (numberToOs n)))

/-- CODEC.NUM2MUX (R134). -/
def execCodecNum2mux (n : Nat) (s : State) : Host.Outcome State Fault Refusal := .next (s.ret (.nat (numberToMux n)))

/-- CODEC.NUM2PGA (R135). -/
def execCodecNum2pga (n : Nat) (s : State) : Host.Outcome State Fault Refusal := .next (s.ret (.nat (numberToPga n)))

/-- CODEC.NUM2MODE (R136). -/
def execCodecNum2mode (n : Nat) (s : State) : Host.Outcome State Fault Refusal := .next (s.ret (.nat (numberToMode n)))

/-- CODEC.NUM2DR (R137). -/
def execCodecNum2dr (n : Nat) (s : State) : Host.Outcome State Fault Refusal := .next (s.ret (.nat (numberToDr n)))

/-- CODEC.NUM2CMODE (R138). -/
def execCodecNum2cmode (n : Nat) (s : State) : Host.Outcome State Fault Refusal :=
  .next (s.ret (.nat (numberToCmode n)))

/-- CODEC.NUM2CPOL (R139). -/
def execCodecNum2cpol (n : Nat) (s : State) : Host.Outcome State Fault Refusal := .next (s.ret (.nat (numberToCpol n)))

/-- CODEC.NUM2CLAT (R140). -/
def execCodecNum2clat (n : Nat) (s : State) : Host.Outcome State Fault Refusal := .next (s.ret (.nat (numberToClat n)))

/-- CODEC.NUM2CQUE (R141). -/
def execCodecNum2cque (n : Nat) (s : State) : Host.Outcome State Fault Refusal := .next (s.ret (.nat (numberToCque n)))

/-- CODEC.LATENCY (R142). -/
def execCodecLatency (n : Nat) (s : State) : Host.Outcome State Fault Refusal :=
  .next (s.ret (.nat (latencyOf s.params (drOf n))))

/-- CODEC.FSR (R143). -/
def execCodecFsr (n : Nat) (s : State) : Host.Outcome State Fault Refusal :=
  .next (s.ret (.nat (fsrOf s.params (pgaOf n))))

/-- Volts per count of a PGA code: `(FSR_MV[g] / 1000) / COUNTS_FULL` (R144). -/
def voltsPerCount (p : Params) (pga : Fin 6) : Rat := (fsrOf p pga : Rat) / 1000 / (p.countsFull : Rat)

/-- CODEC.VOLTS, exact (R144). -/
def execCodecVolts (counts : Half) (pga : Nat) (s : State) : Host.Outcome State Fault Refusal :=
  .next (s.ret (.volts ((counts.toInt : Rat) * voltsPerCount s.params (pgaOf pga))))

/-- CODEC.CTRLBYTE: the 7-bit address in an 8-bit container, bit 7 zero (R110, R145). -/
def execCodecCtrlbyte (nibble : BitVec 4) (cs : BitVec 3) (s : State) : Host.Outcome State Fault Refusal :=
  .next (s.ret (.byte ((deviceAddr nibble cs).setWidth 8)))

/-- CODEC.SIG (R112, R146). -/
def execCodecSig (s : State) : Host.Outcome State Fault Refusal := .next (s.ret (.bytes (signature s.params)))

end Sys2Proof.Machine
end

