-- ==== Sys2Proof/Machine/Dac.lean ====
section
/-! DEFINITION. The DAC unit (spec/42_dac.md). -/

namespace Sys2Proof.Machine

/-- DAC.CLAMP (R200). -/
def execDacClamp (data : Int) (s : State) : Host.Outcome State Fault Refusal :=
  .next (s.ret (.data12 (clamp12 s.params data)))

/-- DAC.FRAME (R201). -/
def execDacFrame (ch pd gain vref : Nat) (data : Int) (s : State) : Host.Outcome State Fault Refusal :=
  match dacChannelOf ch with
  | none => .next (s.raise .badOperand (.nat 0))
  | some c => .next (s.ret (.bytes (dacFrame s.params c (dacChannelRecord pd gain vref) (clamp12 s.params data))))

/-- DAC.SETCFG (R202). -/
def execDacSetcfg (ch pd gain vref : Nat) (s : State) : Host.Outcome State Fault Refusal :=
  match dacChannelOf ch with
  | none => .next (s.raise .badOperand (.nat 0))
  | some c => .next ((s.setDacChannel c (dacChannelRecord pd gain vref)).ret (.nat 0))

/-- The steps of DAC.WRITE for a channel: one frame, one transaction (R203). -/
def State.dacWriteSteps (s : State) (c : Fin 4) (data : Int) : Except ErrKind Value × State :=
  let frame := dacFrame s.params c s.dac.cfg[c] (clamp12 s.params data)
  let w := s.busWrite s.params.dacBus (dacAddr s.params) frame false
  (if w.1 = 3 then .ok (.bytes frame) else .error .bus, w.2)

/-- DAC.WRITE (R203). -/
def execDacWrite (ch : Nat) (data : Int) (s : State) : Host.Outcome State Fault Refusal :=
  match dacChannelOf ch with
  | none => .next (s.raise .badOperand (.nat 0))
  | some c => .next (endOperation (s.dacWriteSteps c data))

end Sys2Proof.Machine
end

