-- ==== Sys2Proof/Machine/Eeprom.lean ====
section
/-! DEFINITION. The EEPROM unit: the write-ready gate, page reads and writes, format, initialize and the signature
check (spec/43_eeprom.md). -/

namespace Sys2Proof.Machine

/-- One probe of the write-ready gate: the sleep to the ready time, then the zero-length write (R111, R222). -/
def State.probe (s : State) : Int × State :=
  (s.sleepUntil s.ee.readyTime).busWrite s.params.eeBus (eeAddr s.params) [] false

/-- `S.ee.readyTime <- Now() + EE_SETTLE_US` (R222, R223). -/
def State.armReadyTime (s : State) : State :=
  s.readClock.setReadyTime (timeAfter s.readClock.env.clock s.params.eeSettleUs)

/-- `Gate(tries)`: whether a probe was acknowledged, and the state after. The ready time moves only where another
attempt follows (R222). -/
def State.gate (s : State) (tries : Nat) : Bool × State :=
  match tries with
  | 0 => (false, s)
  | left + 1 =>
    let p := s.probe
    if p.1 = 0 then (true, p.2)
    else if 0 < left then State.gate p.2.armReadyTime left
    else (false, p.2)

/-- `WritePageRaw(id, p)`: the error kind, `none` on success, and the state after (R108, R223). -/
def State.writePageRaw (s : State) (id : Nat) (p : List Byte) : ErrKind × State :=
  let g := s.gate s.params.eeWriteTries
  if g.1 then
    let w := g.2.busWrite s.params.eeBus (eeAddr s.params) (pageAddrBytes s.params id ++ p) false
    if w.1 = 34 then (.none, w.2.armReadyTime) else (.bus, w.2)
  else (.notReady, g.2)

/-- What the two transactions of a page read gave (R109, R221). -/
inductive PageRead where
  /-- All 32 bytes. -/
  | page (p : List Byte)
  /-- The address write was not taken, and no read was issued. -/
  | noAddress
  /-- The read fell short. -/
  | noData
deriving DecidableEq, Repr

/-- The wait before a page read, where `READ_WAITS_FOR_READY` asks for it (P26, R221). -/
def State.waitForRead (s : State) : State :=
  if s.params.readWaitsForReady then s.sleepUntil s.ee.readyTime else s

/-- The two transactions of a page read (R109, R221). The read is issued only when the address was taken. -/
def State.readPageTransfers (s : State) (id : Nat) : PageRead × State :=
  let w := s.busWrite s.params.eeBus (eeAddr s.params) (pageAddrBytes s.params id) true
  if w.1 = 2 then
    let r := w.2.busRead s.params.eeBus (eeAddr s.params) 32 false
    if r.1 = 32 then (.page r.2.1, r.2.2) else (.noData, r.2.2)
  else (.noAddress, w.2)

/-- The steps of a page read up to where its bytes go, `ReadPageRaw(id)` (R221). -/
def State.readPageRaw (s : State) (id : Nat) : PageRead × State := s.waitForRead.readPageTransfers id

/-- All 32 bytes of PBUF set (R221). -/
def State.fillPbuf (s : State) (p : List Byte) : State := s.setPbuf (s.pbuf.writeBytes 0 p)

/-- EE.READ of a valid page: on a failed data phase PBUF takes 32 unspecified bytes (R221). -/
def State.eeReadPage (s : State) (id : Nat) : State :=
  match s.readPageRaw id with
  | (.page p, s1) => (s1.fillPbuf p).ret (.nat 0)
  | (.noAddress, s1) => s1.raise .bus (.nat 0)
  | (.noData, s1) => (s1.afterDraw.fillPbuf (s1.drawBytes 32)).raise .bus (.nat 0)

/-- EE.READ (R221). -/
def execEeRead (id : Nat) (s : State) : Host.Outcome State Fault Refusal :=
  .next (if s.params.eePages ≤ id then s.raise .badOperand (.nat 0) else s.eeReadPage id)

/-- The end of a page write that gave the kind `w.1` and left the state `w.2`: `return 0` or `raise` (R223). -/
def endPageWrite (w : ErrKind × State) : State := if w.1 = .none then w.2.ret (.nat 0) else w.2.raise w.1 (.nat 0)

/-- EE.WRITE (R223): the id check, then all 32 bytes of PBUF (the model fault R258 where one is unwritten), then the
gate and the write. -/
def execEeWrite (id : Nat) (s : State) : Host.Outcome State Fault Refusal :=
  if s.params.eePages ≤ id then .next (s.raise .badOperand (.nat 0))
  else
    match s.pbuf.readBytes 0 pbufSize with
    | none => .fault (.pbufUnwritten s.faulted)
    | some p => .next (endPageWrite (s.writePageRaw id p))

/-- The end of EE.READY, the gate having answered `g.1` and left the state `g.2` (R222). -/
def endReady (g : Bool × State) : State := if g.1 then g.2.ret (.nat 0) else g.2.raise .notReady (.nat 0)

/-- EE.READY (R222). -/
def execEeReady (tries : Nat) (s : State) : Host.Outcome State Fault Refusal := .next (endReady (s.gate tries))

/-- The mask with the bit of a page set when its write failed (R224, R225). -/
def failedMask (m : BitVec 128) (id : Nat) (e : ErrKind) : BitVec 128 :=
  if e = .none then m else m ||| (1 <<< id)

/-- The loop of EE.FORMAT over the page ids listed: one content for all of them (R224). -/
def State.formatPages (s : State) (r : List Byte) (failed : BitVec 128) (ids : List Nat) : BitVec 128 × State :=
  match ids with
  | [] => (failed, s)
  | id :: rest =>
    let w := s.writePageRaw id r
    State.formatPages w.2 r (failedMask failed id w.1) rest

/-- `INIT_CONTENT(id)` for `id` 0 to 126; it is asked of no other page (P24). -/
def initContent (p : Params) (id : Nat) : List Byte :=
  match p.initContent[id]? with
  | some c => c.toList
  | none => []

/-- The content EE.INIT gives a page, and the state after: the signature and 21 unspecified bytes for the signature
page, `INIT_CONTENT(id)` for the others (R113, R225). -/
def State.initPage (s : State) (id : Nat) : List Byte × State :=
  if id = s.params.eeSigPage then (signature s.params ++ s.drawBytes 21, s.afterDraw) else (initContent s.params id, s)

/-- The loop of EE.INIT over the page ids listed (R225). -/
def State.initPages (s : State) (failed : BitVec 128) (ids : List Nat) : BitVec 128 × State :=
  match ids with
  | [] => (failed, s)
  | id :: rest =>
    let p := s.initPage id
    let w := p.2.writePageRaw id p.1
    State.initPages w.2 (failedMask failed id w.1) rest

/-- The end of a bulk operation whose failed pages are `f.1`: `return 0`, or PARTIAL with the mask (R224, R225). -/
def endBulk (f : BitVec 128 × State) : State :=
  if f.1 = 0 then f.2.ret (.nat 0) else f.2.raise .partialFail (.mask f.1)

/-- EE.FORMAT: one draw of 32 bytes for every page, in ascending order, whatever fails (R224). -/
def execEeFormat (s : State) : Host.Outcome State Fault Refusal :=
  .next (endBulk (s.afterDraw.formatPages (s.drawBytes 32) 0 (List.range s.params.eePages)))

/-- EE.INIT (R225). -/
def execEeInit (s : State) : Host.Outcome State Fault Refusal :=
  .next (endBulk (s.initPages 0 (List.range s.params.eePages)))

/-- EE.CHECKSIG: bytes 0 to 10 of the signature page against `SIG`; PBUF is not touched (R226). -/
def State.checkSignature (s : State) : State :=
  match s.readPageRaw s.params.eeSigPage with
  | (.page p, s1) =>
    if p.take sigLen = signature s.params then s1.ret (.bool true) else s1.raise .sigMismatch (.bool false)
  | (_, s1) => s1.raise .bus (.bool false)

/-- EE.CHECKSIG (R226). -/
def execEeChecksig (s : State) : Host.Outcome State Fault Refusal := .next s.checkSignature

end Sys2Proof.Machine
end

