-- ==== Sys2Proof/Machine/Dispatch.lean ====
section
/-! DEFINITION. The meaning of each operation, one arm per row of spec/opcode_table.json. -/

namespace Sys2Proof.Machine

def exec (i : Instr) (s : State) : Host.Outcome State Fault Refusal :=
  match i with
  | .codecPack os mux pga mode dr cmode cpol clat cque => Sys2Proof.Machine.execCodecPack os mux pga mode dr cmode cpol clat cque s
  | .codecUnpack word => Sys2Proof.Machine.execCodecUnpack word s
  | .codecNum2os n => Sys2Proof.Machine.execCodecNum2os n s
  | .codecNum2mux n => Sys2Proof.Machine.execCodecNum2mux n s
  | .codecNum2pga n => Sys2Proof.Machine.execCodecNum2pga n s
  | .codecNum2mode n => Sys2Proof.Machine.execCodecNum2mode n s
  | .codecNum2dr n => Sys2Proof.Machine.execCodecNum2dr n s
  | .codecNum2cmode n => Sys2Proof.Machine.execCodecNum2cmode n s
  | .codecNum2cpol n => Sys2Proof.Machine.execCodecNum2cpol n s
  | .codecNum2clat n => Sys2Proof.Machine.execCodecNum2clat n s
  | .codecNum2cque n => Sys2Proof.Machine.execCodecNum2cque n s
  | .codecLatency n => Sys2Proof.Machine.execCodecLatency n s
  | .codecFsr n => Sys2Proof.Machine.execCodecFsr n s
  | .codecVolts counts pga => Sys2Proof.Machine.execCodecVolts counts pga s
  | .codecCtrlbyte nibble cs => Sys2Proof.Machine.execCodecCtrlbyte nibble cs s
  | .codecSig => Sys2Proof.Machine.execCodecSig s
  | .adcConfig pga dr cmode cpol clat cque => Sys2Proof.Machine.execAdcConfig pga dr cmode cpol clat cque s
  | .adcStart ch mode => Sys2Proof.Machine.execAdcStart ch mode s
  | .adcComplete ch => Sys2Proof.Machine.execAdcComplete ch s
  | .adcReadc ch force => Sys2Proof.Machine.execAdcReadc ch force s
  | .adcStatus => Sys2Proof.Machine.execAdcStatus s
  | .dacClamp data => Sys2Proof.Machine.execDacClamp data s
  | .dacFrame ch pd gain vref data => Sys2Proof.Machine.execDacFrame ch pd gain vref data s
  | .dacSetcfg ch pd gain vref => Sys2Proof.Machine.execDacSetcfg ch pd gain vref s
  | .dacWrite ch data => Sys2Proof.Machine.execDacWrite ch data s
  | .eeRead id => Sys2Proof.Machine.execEeRead id s
  | .eeWrite id => Sys2Proof.Machine.execEeWrite id s
  | .eeReady tries => Sys2Proof.Machine.execEeReady tries s
  | .eeFormat => Sys2Proof.Machine.execEeFormat s
  | .eeInit => Sys2Proof.Machine.execEeInit s
  | .eeChecksig => Sys2Proof.Machine.execEeChecksig s

end Sys2Proof.Machine
end

