-- ==== Sys2Proof/Machine/Port.lean ====
section
/-! DEFINITION. The host port (spec/60_exceptions.md R250, R267, R268): the block takes the host's next move, runs a
presented operation from start to end, and is idle again. -/

namespace Sys2Proof.Machine

/-- A presented operation: its meaning, BAD_OPCODE for a reserved code, and no presentation at all for a record of the
wrong shape (R90, R93, R267). -/
def State.perform (s : State) (op : Operation) : Host.Outcome State Fault Refusal :=
  match decode op with
  | .instr i => exec i s
  | .reserved => .next s.refuseCode
  | .wrongShape => .refused .recordShape

/-- The host's next move. With none left the block stays idle (R269, R280). -/
def State.takeMove (s : State) : Host.Outcome State Fault Refusal :=
  match s.port with
  | [] => .next s
  | .present op :: _ => s.afterMove.perform op
  | .memWrite a v :: _ => s.afterMove.memWrite a v

end Sys2Proof.Machine
end

