-- ==== Sys2Proof/Machine/Step.lean ====
section
/-! DEFINITION. One step of the machine: one move of the host at the idle block (spec/60_exceptions.md R250). -/

namespace Sys2Proof.Machine

/-- One step. A faulted state is final for the run: every step from it answers the fault again (R258). -/
def step (s : State) : Host.Outcome State Fault Refusal :=
  if s.faultMark then .fault (.pbufUnwritten s) else s.takeMove

/-- `s` with the operation of an opcode-table word as the host's next move, its operands all zero. The block fetches
nothing (R22, R78): what it runs next is what the host presents. -/
def State.withFetchWord (s : State) (nbits w : Nat) : State :=
  { s with port := .present (tableOperation nbits w) :: s.port }

end Sys2Proof.Machine
end

