-- ==== Sys2Proof/Machine/Assembler.lean ====
section
/-! DEFINITION. The host's assembler lines (spec/30_encoding.md R94): `MNEMONIC operand, operand, ...`, the operands in
the order of the format's record, literals decimal or with `0x` or `0b`, and a comment from `;` on. Host-level control
is the host's own and has no line here. -/

namespace Sys2Proof.Machine

/-- The mnemonic of each operation (R92). -/
def mnemonic : Instr → String
  | .codecPack .. => "CODEC.PACK"
  | .codecUnpack .. => "CODEC.UNPACK"
  | .codecNum2os .. => "CODEC.NUM2OS"
  | .codecNum2mux .. => "CODEC.NUM2MUX"
  | .codecNum2pga .. => "CODEC.NUM2PGA"
  | .codecNum2mode .. => "CODEC.NUM2MODE"
  | .codecNum2dr .. => "CODEC.NUM2DR"
  | .codecNum2cmode .. => "CODEC.NUM2CMODE"
  | .codecNum2cpol .. => "CODEC.NUM2CPOL"
  | .codecNum2clat .. => "CODEC.NUM2CLAT"
  | .codecNum2cque .. => "CODEC.NUM2CQUE"
  | .codecLatency .. => "CODEC.LATENCY"
  | .codecFsr .. => "CODEC.FSR"
  | .codecVolts .. => "CODEC.VOLTS"
  | .codecCtrlbyte .. => "CODEC.CTRLBYTE"
  | .codecSig => "CODEC.SIG"
  | .adcConfig .. => "ADC.CONFIG"
  | .adcStart .. => "ADC.START"
  | .adcComplete .. => "ADC.COMPLETE"
  | .adcReadc .. => "ADC.READC"
  | .adcStatus => "ADC.STATUS"
  | .dacClamp .. => "DAC.CLAMP"
  | .dacFrame .. => "DAC.FRAME"
  | .dacSetcfg .. => "DAC.SETCFG"
  | .dacWrite .. => "DAC.WRITE"
  | .eeRead .. => "EE.READ"
  | .eeWrite .. => "EE.WRITE"
  | .eeReady .. => "EE.READY"
  | .eeFormat => "EE.FORMAT"
  | .eeInit => "EE.INIT"
  | .eeChecksig => "EE.CHECKSIG"

/-- The operation of each code with all its operands zero, one per row of R92. -/
def zeroInstrs : List Instr := (List.range 256).filterMap fun n => decodeTableWord 8 n

/-- The code a mnemonic names. -/
def mnemonicCode (name : List Char) : Option Byte :=
  (zeroInstrs.find? fun i => (mnemonic i).toList = name).map instrCode

/-- An operation as a line, its operands decimal. -/
def assemblyLine (i : Instr) : String :=
  match instrRecord i with
  | [] => mnemonic i
  | operands => mnemonic i ++ " " ++ String.intercalate ", " (operands.map toString)

/-- The value of a digit character in a base up to 16. -/
def digitValue (base : Nat) (c : Char) : Option Nat :=
  let n := c.toNat
  let v := if 48 ≤ n ∧ n ≤ 57 then n - 48 else if 97 ≤ n ∧ n ≤ 102 then n - 87 else if 65 ≤ n ∧ n ≤ 70 then n - 55 else 16
  if v < base then some v else none

/-- The number of a row of digits, given the number of the digits before them. -/
def digitsValue (base acc : Nat) (cs : List Char) : Option Nat :=
  match cs with
  | [] => some acc
  | c :: rest =>
    match digitValue base c with
    | some v => digitsValue base (acc * base + v) rest
    | none => none

/-- A literal without a sign. -/
def naturalLiteral (cs : List Char) : Option Nat :=
  match cs with
  | [] => none
  | '0' :: 'x' :: c :: rest => digitsValue 16 0 (c :: rest)
  | '0' :: 'b' :: c :: rest => digitsValue 2 0 (c :: rest)
  | c :: rest => digitsValue 10 0 (c :: rest)

/-- A literal: decimal, `0x` or `0b`, with a minus sign for a negative operand. -/
def literal (cs : List Char) : Option Int :=
  match cs with
  | '-' :: rest => (naturalLiteral rest).map fun n => -(n : Int)
  | _ => (naturalLiteral cs).map fun n => (n : Int)

/-- Characters without the blanks at both ends. -/
def trimBlanks (cs : List Char) : List Char :=
  ((cs.dropWhile fun c => c = ' ').reverse.dropWhile fun c => c = ' ').reverse

/-- The pieces of a line between commas. -/
def splitCommas (acc cs : List Char) : List (List Char) :=
  match cs with
  | [] => [acc.reverse]
  | c :: rest => if c = ',' then acc.reverse :: splitCommas [] rest else splitCommas (c :: acc) rest

/-- All the literals of a list of pieces, if each is one. -/
def literals (pieces : List (List Char)) : Option (List Int) :=
  match pieces with
  | [] => some []
  | p :: rest =>
    match literal (trimBlanks p), literals rest with
    | some x, some xs => some (x :: xs)
    | _, _ => none

/-- The operation a line spells, `none` where it spells none (an unknown mnemonic, a bad literal, a line of nothing but
a comment). -/
def parseLine (line : List Char) : Option Operation :=
  let text := trimBlanks (line.takeWhile fun c => c ≠ ';')
  let name := text.takeWhile fun c => c ≠ ' '
  let rest := trimBlanks (text.dropWhile fun c => c ≠ ' ')
  match mnemonicCode name, (if rest = [] then some [] else literals (splitCommas [] rest)) with
  | some code, some record => some { code, record }
  | _, _ => none

end Sys2Proof.Machine
end

