-- ==== Sys2Proof/Machine/Pseudo.lean ====
section
/-! DEFINITION. The pseudo-operations (spec/30_encoding.md R95): what a host issues for each, in order. They are host
macros, not operations of the block: each is a sequence of the block's operations, and `step` knows none of them. -/

namespace Sys2Proof.Machine

/-- The next operation of a host's sequence, issued if the last one left a state. -/
def issueNext (o : Host.Outcome State Fault Refusal) (f : State → Host.Outcome State Fault Refusal) :
    Host.Outcome State Fault Refusal :=
  match o with
  | .next s => f s
  | .fault r => .fault r
  | .refused r => .refused r

/-- `ADC.CONVERT ch, mode`: START, then COMPLETE only if START's result has `ok`. -/
def pseudoAdcConvert (ch mode : Nat) (s : State) : Host.Outcome State Fault Refusal :=
  issueNext (exec (.adcStart ch mode) s) fun s1 => if s1.res.ok then exec (.adcComplete ch) s1 else .next s1

/-- The count a result record carries, as the `i16` operand of CODEC.VOLTS. -/
def Result.countOf (r : Result) : Half :=
  match r.value with
  | .count c => c
  | _ => 0

/-- The PGA code a result record of ADC.STATUS carries. -/
def Result.pgaOf (r : Result) : Nat :=
  match r.value with
  | .status a => a.pga.toNat
  | _ => 0

/-- `ADC.VOLTS ch`: CONVERT in single-shot mode, then only if it has `ok` CODEC.VOLTS of its value and `S.adc.pga`,
which the host reads with ADC.STATUS. -/
def pseudoAdcVolts (ch : Nat) (s : State) : Host.Outcome State Fault Refusal :=
  issueNext (pseudoAdcConvert ch 1 s) fun s1 =>
    if s1.res.ok then
      issueNext (exec .adcStatus s1) fun s2 => exec (.codecVolts s1.res.countOf s2.res.pgaOf) s2
    else .next s1

/-- `DAC.WRITEALL d0, d1, d2, d3`: the four channels in order, each whatever the result of the one before (R204). -/
def pseudoDacWriteall (d0 d1 d2 d3 : Int) (s : State) : Host.Outcome State Fault Refusal :=
  issueNext (exec (.dacWrite 0 d0) s) fun s1 =>
    issueNext (exec (.dacWrite 1 d1) s1) fun s2 =>
      issueNext (exec (.dacWrite 2 d2) s2) fun s3 => exec (.dacWrite 3 d3) s3

/-- `EE.STARTUP`: CHECKSIG, then FORMAT and INIT only if its result has `ok = false` (R282). -/
def pseudoEeStartup (s : State) : Host.Outcome State Fault Refusal :=
  issueNext (exec .eeChecksig s) fun s1 =>
    if s1.res.ok then .next s1 else issueNext (exec .eeFormat s1) fun s2 => exec .eeInit s2

end Sys2Proof.Machine
end

