-- ==== Sys2Proof/Safety.lean ====
section
/-! DEFINITION. What counts as a sound state and a sound history of the block, in the terms the claims use. -/

namespace Sys2Proof.Machine

/-! ### The invariant of the state -/

/-- The shadow gain is a legal enumerator (R28: "Each holds a legal enumerator only (PGA 0..5 ...)"). -/
def State.PgaLegal (s : State) : Prop := s.adc.pga.toNat ≤ 5

/-- A pending conversion has no valid cache (R180 (a)). -/
def State.CacheQuietWhileConverting (s : State) : Prop := s.adc.phase = .converting → s.adc.cacheValid = false

/-- `ok` says whether the error kind is NONE (R35, R251). -/
def State.ResultConsistent (s : State) : Prop := s.res.ok = true ↔ s.res.err = .none

/-- PBUF is in canonical form, and so is the reference EEPROM where there is one. -/
def State.MemoriesWf (s : State) : Prop :=
  s.pbuf.wf = true ∧ ∀ v, s.env.devices = some v → v.eeprom.mem.eeWf = true

/-- The invariant that every step keeps. -/
structure State.Inv (s : State) : Prop where
  paramsStated : s.params.Stated
  pgaLegal : s.PgaLegal
  cacheQuiet : s.CacheQuietWhileConverting
  resultConsistent : s.ResultConsistent
  memoriesWf : s.MemoriesWf

/-! ### The history -/

/-- An event on the bus port. -/
def Event.isTransfer : Event → Bool
  | .write .. => true
  | .read .. => true
  | _ => false

/-- The bus transactions of a stretch of history. -/
def transfers (h : List Event) : List Event := h.filter Event.isTransfer

/-- The pair of bus and address of one of the block's three devices (R4, R60, R75). -/
def isUnitPort (p : Params) (bus : BusId) (addr : BusAddr) : Prop :=
  (bus = p.adcBus ∧ addr = p.adcAddr) ∨ (bus = p.dacBus ∧ addr = dacAddr p) ∨ (bus = p.eeBus ∧ addr = eeAddr p)

/-- A transaction goes to one of the block's devices, has one of the widths of R74, and its result is within the
limits of R61: at most the length asked for. -/
def Event.Lawful (p : Params) : Event → Prop
  | .write bus addr bytes _ r =>
    isUnitPort p bus addr ∧ bytes.length ∈ [0, 1, 2, 3, 34] ∧ r ≤ bytes.length ∧ -(2 ^ 31) ≤ r
  | .read bus addr n hold r data =>
    isUnitPort p bus addr ∧ (n = 2 ∨ n = 32) ∧ hold = false ∧ r ≤ n ∧ -(2 ^ 31) ≤ r ∧ (r = n → data.length = n)
  | _ => True

/-- Every accepted transaction that holds the bus is the pointer or address write of a read, one or two bytes long,
and the event right after it is the read of the same peripheral (R69). The newest event comes first. -/
def HoldIsFollowed (h : List Event) : Prop :=
  ∀ newer older bus addr bytes r, h = newer ++ Event.write bus addr bytes true r :: older →
    (bytes.length = 1 ∨ bytes.length = 2) ∧
    (r = bytes.length → ∃ newer' n r' data, newer = newer' ++ [Event.read bus addr n false r' data])

/-- The number of two bytes, the more significant one first. -/
def bigEndian (hi lo : Byte) : Nat := hi.toNat * 256 + lo.toNat

/-- The two bytes of a number below 65536, the more significant one first. -/
def bigEndianBytes (n : Nat) : List Byte := [BitVec.ofNat 8 (n / 256), BitVec.ofNat 8 (n % 256)]

/-- Whether a configuration word read back has this channel (bits 14:12) and this status (bit 15). -/
def ReadsBack (d : Draw) (channel os : Nat) : Prop :=
  bigEndian d.data[0] d.data[1] / 4096 % 8 = channel ∧ bigEndian d.data[0] d.data[1] / 32768 = os

/-- The two events of reading an ADC register, newest first: the pointer write that holds the bus, and the read. -/
def registerReadEvents (p : Params) (reg : Byte) (d : Draw) : List Event :=
  [.read p.adcBus p.adcAddr 2 false 2 [d.data[0], d.data[1]], .write p.adcBus p.adcAddr [reg] true 1]

/-- The probe of the write-ready gate, with its result (R111). -/
def probeEvent (p : Params) (r : Int) : Event := .write p.eeBus (eeAddr p) [] false r

/-- The transaction of a page write, with its result (R108). -/
def pageWriteEvent (p : Params) (id : Nat) (content : List Byte) (r : Int) : Event :=
  .write p.eeBus (eeAddr p) (bigEndianBytes (id * p.eePageSize) ++ content) false r

/-- One attempt at writing a page, its transactions in the order they were issued: probes until one is acknowledged, at
most `EE_WRITE_TRIES` of them, and then the page write. `ok` says that the bus took the write whole. -/
def PageAttempt (p : Params) (id : Nat) (content : List Byte) (ok : Bool) (seg : List Event) : Prop :=
  (∃ fails : List Int, fails.length = p.eeWriteTries ∧ (∀ f ∈ fails, f ≠ 0) ∧
    seg = fails.map (probeEvent p) ∧ ok = false) ∨
  (∃ (fails : List Int) (r : Int), fails.length < p.eeWriteTries ∧ (∀ f ∈ fails, f ≠ 0) ∧
    seg = fails.map (probeEvent p) ++ [probeEvent p 0, pageWriteEvent p id content r] ∧ (ok = true ↔ r = 34))

/-- The events of rounds of the write-ready gate, newest first. A round is the time it sleeps to and its probe's
result. -/
def gateEvents (p : Params) (rounds : List (Timestamp × Int)) : List Event :=
  rounds.reverse.flatMap fun k => [probeEvent p k.2, .sleep k.1]

/-- The configuration write of a START for a channel and a mode, with its result (R106, R172). -/
def State.startEvent (s : State) (ch mode : Nat) (r : Int) : Event :=
  .write s.params.adcBus s.params.adcAddr
    (0x01 :: bigEndianBytes (s.startWord (BitVec.ofNat 3 (min ch 7)) (BitVec.ofNat 1 (min mode 1))).toNat) false r

/-- No operation of the run failed: no result record in the history says so, no reserved code was presented, and no
fault was met (R258, R267). -/
def State.NoOperationFailed (s : State) : Prop :=
  (∀ r, Event.result r ∈ s.history → r.ok = true) ∧ s.refusalMark = false ∧ s.faultMark = false

/-- The launch premise of R262 on the clock. -/
def State.ClockPremise (s : State) : Prop := s.env.clock.toNat < 2 ^ 64 - 2 ^ 32

/-! ### What an operation leaves alone -/

/-- The parameters, the marks and the host's remaining moves are unchanged. -/
def KeepsRun (s t : State) : Prop :=
  t.params = s.params ∧ t.faultMark = s.faultMark ∧ t.refusalMark = s.refusalMark ∧ t.port = s.port

/-- Every byte of PBUF reads as before. -/
def KeepsPbuf (s t : State) : Prop := ∀ a, t.pbuf.lookup a = s.pbuf.lookup a

/-- The state `s` with the result record `r` written and nothing else changed: what an operation without a
transaction, a sleep or a clock read leaves. -/
def withResult (s : State) (r : Result) : State := { s with res := r, history := .result r :: s.history }

/-- The choice the environment makes after `k` more of them, in whatever environment: the script's, or a free one. -/
def State.drawAt (s : State) (k : Nat) : Draw :=
  (s.env.script[k]?).getD (Config.freeDraw (s.env.drawCount + k))

/-- The bus is the unrestricted oracle, and its next choices are `ds`. Every state without reference devices awaits
some `ds` of each length, so a statement over all `ds` that a state may await leaves no state out. -/
def State.Awaits (s : State) (ds : List Draw) : Prop :=
  s.env.devices = none ∧ ∀ k, (h : k < ds.length) → s.drawAt k = ds[k]

/-- The environment of `s` after `k` choices, its clock at `c`. -/
def envAfter (s : State) (k : Nat) (c : Timestamp) : Environment where
  clock := c
  script := s.env.script.drop k
  drawCount := s.env.drawCount + k
  devices := s.env.devices

/-- What an operation leaves that wrote nothing but its result `r`, after the events `evs`, newest first, in which the
environment made `k` choices and the clock came to `c`. -/
def State.afterRun (s : State) (r : Result) (evs : List Event) (k : Nat) (c : Timestamp) : State :=
  { s with res := r, history := .result r :: evs ++ s.history, env := envAfter s k c }

/-! ### The write-ready gate's time, and the second attempt of a completion -/

/-- The clock that is read after round `j` of the gate failed, where the round began with the clock at `c` and slept to
`target`: the sleep, the probe and the clock reading are choices `3j`, `3j + 1` and `3j + 2` (R64, R222, R262, R263). -/
def State.clockAfterRound (s : State) (j : Nat) (c target : Timestamp) : Timestamp :=
  clockForward
    (clockForward (clockForward (laterOf c target) (s.drawAt (3 * j)).advance)
      (min (s.drawAt (3 * j + 1)).advance (s.params.busTimeoutUs + s.params.transferUs)))
    (s.drawAt (3 * j + 2)).advance

/-- Rounds of the gate, oldest first, from round `j` on with the clock at `c` and the ready time `ready`: each sleeps to
the ready time it finds, and another follows only a failed probe, with the ready time then the clock after that probe
plus `EE_SETTLE_US` (R222). -/
def State.GateRounds (s : State) (j : Nat) (c ready : Timestamp) : List (Timestamp × Int) → Prop
  | [] => True
  | k :: rest =>
    k.1 = ready ∧
    (rest ≠ [] → k.2 ≠ 0 ∧
      State.GateRounds s (j + 1) (s.clockAfterRound j c ready)
        (s.clockAfterRound j c ready + BitVec.ofNat 64 s.params.eeSettleUs) rest)

/-- The choices of `fails` failed rounds, each a sleep, a probe and a clock reading. -/
def roundDraws (fails : List (Draw × Draw × Draw)) : List Draw := fails.flatMap fun f => [f.1, f.2.1, f.2.2]

/-- The choices of a first attempt of ADC.COMPLETE that reads the configuration back and is followed by another: the
sleep, the two transactions, and under `ADC_RETRY_REARM` a clock reading (R173). -/
def firstAttempt (p : Params) (z p1 c1 n : Draw) : List Draw :=
  if p.adcRetryRearm then [z, p1, c1, n] else [z, p1, c1]

/-- The deadline of the second attempt of ADC.COMPLETE, `t` the clock read after the first (R173). -/
def State.secondDeadline (s : State) (t : Timestamp) : Timestamp :=
  if s.params.adcRetryRearm then t + BitVec.ofNat 64 (latencyOf s.params s.adc.dr) else s.adc.deadline

/-- The events of an attempt of ADC.COMPLETE with the deadline `t` that reads the configuration back, newest first. -/
def attemptEvents (p : Params) (t : Timestamp) (d : Draw) : List Event :=
  registerReadEvents p 0x01 d ++ [.sleep t]

/-! ### Which operation it is, and how much it does on the bus -/

/-- The operation is ADC.CONFIG. -/
def IsAdcConfig (i : Instr) : Prop := ∃ pga dr cmode cpol clat cque, i = .adcConfig pga dr cmode cpol clat cque

/-- The operation is ADC.START. -/
def IsAdcStart (i : Instr) : Prop := ∃ ch mode, i = .adcStart ch mode

/-- The operation is ADC.COMPLETE. -/
def IsAdcComplete (i : Instr) : Prop := ∃ ch, i = .adcComplete ch

/-- The operation is ADC.READC. -/
def IsAdcReadc (i : Instr) : Prop := ∃ ch force, i = .adcReadc ch force

/-- The most transactions an operation issues, by the steps of its rule. -/
def mostTransfers (p : Params) : Instr → Nat
  | .adcStart .. => 1
  | .adcComplete .. => 2 * p.adcCompleteTries + 2
  | .adcReadc .. => 1 + (2 * p.adcCompleteTries + 2)
  | .dacWrite .. => 1
  | .eeRead .. => 2
  | .eeWrite .. => p.eeWriteTries + 1
  | .eeReady tries => tries
  | .eeFormat => p.eePages * (p.eeWriteTries + 1)
  | .eeInit => p.eePages * (p.eeWriteTries + 1)
  | .eeChecksig => 2
  | .codecPack .. | .codecUnpack .. | .codecNum2os .. | .codecNum2mux .. | .codecNum2pga .. | .codecNum2mode ..
  | .codecNum2dr .. | .codecNum2cmode .. | .codecNum2cpol .. | .codecNum2clat .. | .codecNum2cque ..
  | .codecLatency .. | .codecFsr .. | .codecVolts .. | .codecCtrlbyte .. | .codecSig => 0
  | .adcConfig .. | .adcStatus => 0
  | .dacClamp .. | .dacFrame .. | .dacSetcfg .. => 0

/-- The most sleeps an operation makes, by the steps of its rule. -/
def mostSleeps (p : Params) : Instr → Nat
  | .adcComplete .. => p.adcCompleteTries
  | .adcReadc .. => p.adcCompleteTries
  | .eeRead .. => 1
  | .eeWrite .. => p.eeWriteTries
  | .eeReady tries => tries
  | .eeFormat => p.eePages * p.eeWriteTries
  | .eeInit => p.eePages * p.eeWriteTries
  | .eeChecksig => 1
  | .codecPack .. | .codecUnpack .. | .codecNum2os .. | .codecNum2mux .. | .codecNum2pga .. | .codecNum2mode ..
  | .codecNum2dr .. | .codecNum2cmode .. | .codecNum2cpol .. | .codecNum2clat .. | .codecNum2cque ..
  | .codecLatency .. | .codecFsr .. | .codecVolts .. | .codecCtrlbyte .. | .codecSig => 0
  | .adcConfig .. | .adcStart .. | .adcStatus => 0
  | .dacClamp .. | .dacFrame .. | .dacSetcfg .. | .dacWrite .. => 0

/-- The sleeps of a stretch of history. -/
def sleeps (h : List Event) : List Event := h.filter fun e =>
  match e with
  | .sleep _ => true
  | _ => false

/-! ### The error kinds an operation may report -/

/-- R252's column "reported by", read by operation. -/
def reportable : Instr → List ErrKind
  | .codecPack .. | .codecUnpack .. | .codecNum2os .. | .codecNum2mux .. | .codecNum2pga .. | .codecNum2mode ..
  | .codecNum2dr .. | .codecNum2cmode .. | .codecNum2cpol .. | .codecNum2clat .. | .codecNum2cque ..
  | .codecLatency .. | .codecFsr .. | .codecVolts .. | .codecCtrlbyte .. | .codecSig => [.none]
  | .adcConfig .. => [.none, .busy]
  | .adcStart .. => [.none, .bus, .busy]
  | .adcComplete .. => [.none, .bus, .mismatch, .pending, .notConverting]
  | .adcReadc .. => [.none, .bus, .mismatch, .pending]
  | .adcStatus => [.none]
  | .dacClamp .. => [.none]
  | .dacFrame .. => [.none, .badOperand]
  | .dacSetcfg .. => [.none, .badOperand]
  | .dacWrite .. => [.none, .bus, .badOperand]
  | .eeRead .. => [.none, .bus, .badOperand]
  | .eeWrite .. => [.none, .bus, .notReady, .badOperand]
  | .eeReady .. => [.none, .notReady]
  | .eeFormat => [.none, .partialFail]
  | .eeInit => [.none, .partialFail]
  | .eeChecksig => [.none, .bus, .sigMismatch]

end Sys2Proof.Machine
end

