-- ==== Sys2Proof/Certificates/Slice0/Obligations.lean ====
section
/-! DEFINITION. The statements about the block, from the numbered rules of spec/. A statement quantifies over every
state, also states that no run reaches. Where it fixes what the environment answers, its premise names the next choices
of the oracle (`State.Awaits`), and what the oracle may answer is left to those choices. Where a statement lists the
events of an operation, a sleep stands among them also when its time has passed: that is the model's reading of
20_memory.md R67 (log entry 8). A premise `s.params.Stated` says that the parameters have the values 00_scope.md states;
it is part of the invariant that every step keeps. -/

open Sys2Proof Sys2Proof.Machine

/-! ### Reset, the host port, and one step -/

/-- R280: every piece of block state has the value of R280's table after reset. -/
def Obligations.ResetGivesListedValues : Prop :=
  State.reset.adc.phase = .idle ∧ State.reset.adc.deadline = 0 ∧ State.reset.adc.lastRead = 0 ∧
  State.reset.adc.cacheValid = false ∧ State.reset.adc.cacheChannel = 0 ∧
  State.reset.adc.pga = 2 ∧ State.reset.adc.dr = 4 ∧
  State.reset.adc.cmode = 0 ∧ State.reset.adc.cpol = 0 ∧ State.reset.adc.clat = 0 ∧ State.reset.adc.cque = 3 ∧
  (∀ c : Fin 4, State.reset.dac.cfg[c] = { pd := 0, gain := 0, vref := 0 }) ∧
  State.reset.ee.readyTime = 0 ∧
  (∀ a, State.reset.pbuf.lookup a = none) ∧
  State.reset.res = { ok := true, err := .none, value := .nat 0 } ∧
  State.reset.faultMark = false ∧ State.reset.refusalMark = false

/-- The invariant of the state holds after reset (with the values of R280). What else it says is the model's choice: the
history starts empty (log entry 12), no operation is presented yet (log entry 2), and a step without one leaves the
block idle (log entry 16). -/
def Obligations.ResetStateIsSound : Prop :=
  State.reset.Inv ∧ State.reset.history = [] ∧ State.reset.port = [] ∧ step State.reset = .next State.reset

/-- A step runs the operation the host presents: the port has moved past it, and nothing else has changed before its
meaning is applied. -/
def Obligations.StepPerformsPresentedOperation : Prop :=
  ∀ (s : State) (op : Operation) (rest : List HostMove) (i : Instr),
    s.faultMark = false → s.port = .present op :: rest → decode op = .instr i →
    step s = exec i { s with port := rest }

/-- The fault of R258: EE.WRITE of a valid page with an unwritten byte in PBUF faults, and no other operation does, nor
EE.WRITE in another case; and no operation is refused. That the fault carries the state with nothing but its mark
changed, without a result record or an event, and that every later step answers the fault again, is the model's choice
(log entry 9). -/
def Obligations.FaultOnlyOnUnwrittenBuffer : Prop :=
  (∀ (i : Instr) (s : State),
    ((∃ id, i = .eeWrite id ∧ id < s.params.eePages) ∧ (∃ a, a < 32 ∧ s.pbuf.lookup a = none) →
      exec i s = .fault (.pbufUnwritten { s with faultMark := true })) ∧
    (¬((∃ id, i = .eeWrite id ∧ id < s.params.eePages) ∧ (∃ a, a < 32 ∧ s.pbuf.lookup a = none)) →
      ∃ t, exec i s = .next t)) ∧
  (∀ s : State, s.faultMark = true → step s = .fault (.pbufUnwritten s))

/-- R92: codes taken from the map, with operand records written out, decode to the operations they stand for. -/
def Obligations.SampleOperationsDecode : Prop :=
  decode ⟨0x00, [1, 4, 1, 1, 7, 0, 0, 0, 3]⟩ = .instr (.codecPack 1 4 1 1 7 0 0 0 3) ∧
  decode ⟨0x0D, [-200, 2]⟩ = .instr (.codecVolts 0xFF38 2) ∧
  decode ⟨0x11, [4, 1]⟩ = .instr (.adcStart 4 1) ∧
  decode ⟨0x13, [4, 0]⟩ = .instr (.adcReadc 4 false) ∧
  decode ⟨0x23, [0, -10]⟩ = .instr (.dacWrite 0 (-10)) ∧
  decode ⟨0x31, [2]⟩ = .instr (.eeWrite 2) ∧
  decode ⟨0x35, []⟩ = .instr .eeChecksig

/-- R70: `MemWrite` sets exactly its bytes of PBUF and changes nothing else, `MemRead` gives the bytes, and an access
outside 0 to 31 is refused. -/
def Obligations.HostAccessesPbuf : Prop :=
  ∀ (s : State) (a : Nat) (v : List Byte) (rest : List HostMove),
    s.faultMark = false → s.port = .memWrite a v :: rest →
    (a + v.length ≤ 32 →
      ∃ m : Memory, step s = .next { s with port := rest, pbuf := m } ∧
        (∀ i, i < v.length → m.lookup (a + i) = v[i]?) ∧
        (∀ b, b < a ∨ a + v.length ≤ b → m.lookup b = s.pbuf.lookup b) ∧
        { s with pbuf := m }.memRead a v.length = some (v.map some)) ∧
    (32 < a + v.length → step s = .refused .pbufRange ∧ s.memRead a v.length = none)

/-- Decode and encode agree: every operation, with every operand at every value, is read back from its code and
record. -/
def Obligations.DecodeInvertsEncode : Prop := ∀ i : Instr, decode (encode i) = .instr i

/-- Each presented operation has one meaning: what decodes to an operation is that operation's code and record. -/
def Obligations.EncodeInvertsDecode : Prop := ∀ (op : Operation) (i : Instr), decode op = .instr i → encode i = op

/-- R93, R267: a reserved code is answered with BAD_OPCODE and the refusal mark, whatever its record, with no
transaction and no other change of the block; the codes of the map are the others. That the answer is an event of the
history is the model's choice (log entry 10), and so is the refusal that answers a record of the wrong shape, which
cannot be presented (log entry 11). -/
def Obligations.ReservedCodesRefused : Prop :=
  ∀ (s : State) (op : Operation) (rest : List HostMove), s.faultMark = false → s.port = .present op :: rest →
    ((0x15 ≤ op.code.toNat ∧ op.code.toNat ≤ 0x1F) ∨ (0x24 ≤ op.code.toNat ∧ op.code.toNat ≤ 0x2F) ∨
        0x36 ≤ op.code.toNat →
      step s = .next
        { s with
          port := rest
          refusalMark := true
          res := { ok := false, err := .badOpcode, value := .nat 0 }
          history := .result { ok := false, err := .badOpcode, value := .nat 0 } :: s.history }) ∧
    (¬((0x15 ≤ op.code.toNat ∧ op.code.toNat ≤ 0x1F) ∨ (0x24 ≤ op.code.toNat ∧ op.code.toNat ≤ 0x2F) ∨
        0x36 ≤ op.code.toNat) →
      (∃ f, codeFormat op.code = some f ∧
        ((recordFits (formatKinds f) op.record = true ∧ ∃ i, decode op = .instr i) ∨
          (recordFits (formatKinds f) op.record = false ∧ step s = .refused .recordShape))))

/-! ### Codec unit -/

/-- R133 to R141: each number-to-enumerator operation, by its code and format FN, gives `min(n, MAX)` and writes
nothing but `S.res`. -/
def Obligations.NumberConversionsSaturate : Prop :=
  ∀ (n : Nat) (s : State),
    (decode ⟨0x02, [n]⟩ = .instr (.codecNum2os n) ∧
      exec (.codecNum2os n) s = .next (withResult s { ok := true, err := .none, value := .nat (min n 1) })) ∧
    (decode ⟨0x03, [n]⟩ = .instr (.codecNum2mux n) ∧
      exec (.codecNum2mux n) s = .next (withResult s { ok := true, err := .none, value := .nat (min n 7) })) ∧
    (decode ⟨0x04, [n]⟩ = .instr (.codecNum2pga n) ∧
      exec (.codecNum2pga n) s = .next (withResult s { ok := true, err := .none, value := .nat (min n 5) })) ∧
    (decode ⟨0x05, [n]⟩ = .instr (.codecNum2mode n) ∧
      exec (.codecNum2mode n) s = .next (withResult s { ok := true, err := .none, value := .nat (min n 1) })) ∧
    (decode ⟨0x06, [n]⟩ = .instr (.codecNum2dr n) ∧
      exec (.codecNum2dr n) s = .next (withResult s { ok := true, err := .none, value := .nat (min n 7) })) ∧
    (decode ⟨0x07, [n]⟩ = .instr (.codecNum2cmode n) ∧
      exec (.codecNum2cmode n) s = .next (withResult s { ok := true, err := .none, value := .nat (min n 1) })) ∧
    (decode ⟨0x08, [n]⟩ = .instr (.codecNum2cpol n) ∧
      exec (.codecNum2cpol n) s = .next (withResult s { ok := true, err := .none, value := .nat (min n 1) })) ∧
    (decode ⟨0x09, [n]⟩ = .instr (.codecNum2clat n) ∧
      exec (.codecNum2clat n) s = .next (withResult s { ok := true, err := .none, value := .nat (min n 1) })) ∧
    (decode ⟨0x0A, [n]⟩ = .instr (.codecNum2cque n) ∧
      exec (.codecNum2cque n) s = .next (withResult s { ok := true, err := .none, value := .nat (min n 3) }))

/-- R131: CODEC.PACK gives the word whose fields are the saturated operands at their places, and writes nothing but
`S.res`. -/
def Obligations.PackComposesWord : Prop :=
  ∀ (os mux pga mode dr cmode cpol clat cque : Nat) (s : State),
    decode ⟨0x00, [os, mux, pga, mode, dr, cmode, cpol, clat, cque]⟩ =
        .instr (.codecPack os mux pga mode dr cmode cpol clat cque) ∧
    ∃ w : Half,
      w.toNat = min os 1 * 2 ^ 15 + min mux 7 * 2 ^ 12 + min pga 5 * 2 ^ 9 + min mode 1 * 2 ^ 8 + min dr 7 * 2 ^ 5 +
        min cmode 1 * 2 ^ 4 + min cpol 1 * 2 ^ 3 + min clat 1 * 2 ^ 2 + min cque 3 ∧
      exec (.codecPack os mux pga mode dr cmode cpol clat cque) s =
        .next (withResult s { ok := true, err := .none, value := .word w })

/-- R132: CODEC.UNPACK gives the nine fields of the word, PGA codes 6 and 7 as 5, and writes nothing but `S.res`. -/
def Obligations.UnpackSplitsWord : Prop :=
  ∀ (w : Half) (s : State),
    decode ⟨0x01, [w.toNat]⟩ = .instr (.codecUnpack w) ∧
    ∃ f : ConfigFields,
      f.os.toNat = w.toNat / 2 ^ 15 ∧ f.mux.toNat = w.toNat / 2 ^ 12 % 8 ∧
      f.pga.toNat = min (w.toNat / 2 ^ 9 % 8) 5 ∧ f.mode.toNat = w.toNat / 2 ^ 8 % 2 ∧
      f.dr.toNat = w.toNat / 2 ^ 5 % 8 ∧ f.cmode.toNat = w.toNat / 2 ^ 4 % 2 ∧
      f.cpol.toNat = w.toNat / 2 ^ 3 % 2 ∧ f.clat.toNat = w.toNat / 2 ^ 2 % 2 ∧ f.cque.toNat = w.toNat % 4 ∧
      exec (.codecUnpack w) s = .next (withResult s { ok := true, err := .none, value := .fields f })

/-- The law of 40_codec.md section 6: a record of legal enumerators survives packing and unpacking, and a word
survives unpacking and packing exactly when its PGA bits are at most 5; otherwise only those bits change, to 5. -/
def Obligations.PackAndUnpackRoundTrip : Prop :=
  (∀ f : ConfigFields, f.pga.toNat ≤ 5 → unpackWord (packFields f) = f) ∧
  (∀ w : Half, packFields (unpackWord w) = w ↔ w.toNat / 2 ^ 9 % 8 ≤ 5) ∧
  (∀ w : Half, 5 < w.toNat / 2 ^ 9 % 8 →
    (packFields (unpackWord w)).toNat = w.toNat / 2 ^ 12 * 2 ^ 12 + 5 * 2 ^ 9 + w.toNat % 2 ^ 9)

/-- R142, with R149's law: CODEC.LATENCY gives the entry of `LATENCY_US` for the saturated DR code; with the stated
parameters that is 1500 µs times the rounded-up ratio of the fastest rate to its own (R150's table), and the latency
falls as the rate rises. -/
def Obligations.LatencyFollowsRate : Prop :=
  (∀ (n : Nat) (s : State),
    decode ⟨0x0B, [n]⟩ = .instr (.codecLatency n) ∧
    ∃ us, s.params.latencyUs[min n 7]? = some us ∧
      (s.params.Stated → ∃ rate, [8, 16, 32, 64, 128, 250, 475, 860][min n 7]? = some rate ∧
        us = 1500 * ((860 + rate - 1) / rate)) ∧
      exec (.codecLatency n) s = .next (withResult s { ok := true, err := .none, value := .nat us })) ∧
  (∀ p : Params, p.Stated → ∀ a b : Fin 8, a < b → p.latencyUs[b] < p.latencyUs[a])

/-- R143: CODEC.FSR gives the entry of `FSR_MV` for the saturated PGA code; with the stated parameters that is the
full-scale range of R99's table. -/
def Obligations.FullScaleRangeTable : Prop :=
  ∀ (n : Nat) (s : State),
    decode ⟨0x0C, [n]⟩ = .instr (.codecFsr n) ∧
    ∃ mv, s.params.fsrMv[min n 5]? = some mv ∧
      (s.params.Stated → [6144, 4096, 2048, 1024, 512, 256][min n 5]? = some mv) ∧
      exec (.codecFsr n) s = .next (withResult s { ok := true, err := .none, value := .nat mv })

/-- R144: CODEC.VOLTS is exact: the count times the range in volts, over `COUNTS_FULL`, 32767 with the stated
parameters. -/
def Obligations.VoltsAreExact : Prop :=
  ∀ (counts : Half) (pga : Nat) (s : State),
    decode ⟨0x0D, [counts.toInt, pga]⟩ = .instr (.codecVolts counts pga) ∧
    ∃ (mv : Nat) (q : Rat), s.params.fsrMv[min pga 5]? = some mv ∧
      (s.params.countsFull ≠ 0 → q * (s.params.countsFull : Rat) * 1000 = (counts.toInt : Rat) * (mv : Rat)) ∧
      (s.params.Stated → [6144, 4096, 2048, 1024, 512, 256][min pga 5]? = some mv ∧
        q * 32767 * 1000 = (counts.toInt : Rat) * (mv : Rat)) ∧
      exec (.codecVolts counts pga) s = .next (withResult s { ok := true, err := .none, value := .volts q })

/-- R145: CODEC.CTRLBYTE is the nibble above the chip-select, bit 7 zero. -/
def Obligations.CtrlbyteComposesAddress : Prop :=
  ∀ (nibble : BitVec 4) (cs : BitVec 3) (s : State),
    decode ⟨0x0E, [nibble.toNat, cs.toNat]⟩ = .instr (.codecCtrlbyte nibble cs) ∧
    ∃ addr : Byte, addr.toNat = nibble.toNat * 8 + cs.toNat ∧ addr.getLsbD 7 = false ∧
      exec (.codecCtrlbyte nibble cs) s = .next (withResult s { ok := true, err := .none, value := .byte addr })

/-- R146, R112: CODEC.SIG is a zero byte, the five pattern bytes, a zero byte and the four bytes of the build date. -/
def Obligations.SignatureComposition : Prop :=
  ∀ s : State,
    decode ⟨0x0F, []⟩ = .instr .codecSig ∧
    ∃ sig : List Byte,
      sig = [(0x00 : Byte), s.params.sigPattern[0], s.params.sigPattern[1], s.params.sigPattern[2], s.params.sigPattern[3],
        s.params.sigPattern[4], 0x00, s.params.buildDate[0], s.params.buildDate[1], s.params.buildDate[2],
        s.params.buildDate[3]] ∧
      exec .codecSig s = .next (withResult s { ok := true, err := .none, value := .bytes sig })

/-! ### DAC unit -/

/-- R200: DAC.CLAMP gives the nearest count of 0 to `DAC_MAX`, 4095 with the stated parameters. -/
def Obligations.DacClampKeepsRange : Prop :=
  ∀ (data : Int) (s : State), decode ⟨0x20, [data]⟩ = .instr (.dacClamp data) ∧ ∃ d : BitVec 12,
    (s.params.dacMax < 4096 → (d.toNat : Int) =
      if data < 0 then 0 else if s.params.dacMax < data then (s.params.dacMax : Int) else data) ∧
    (s.params.Stated → (d.toNat : Int) = if data < 0 then 0 else if 4095 < data then 4095 else data) ∧
    exec (.dacClamp data) s = .next (withResult s { ok := true, err := .none, value := .data12 d })

/-- R201: DAC.FRAME gives the three bytes of R103 for a channel, and BAD_OPERAND for the "not a channel" sentinel. -/
def Obligations.DacFrameLayout : Prop :=
  ∀ (ch pd gain vref : Nat) (data : Int) (s : State),
    decode ⟨0x21, [ch, pd, gain, vref, data]⟩ = .instr (.dacFrame ch pd gain vref data) ∧
    (ch < 4 → ∃ (b0 b1 b2 : Byte) (d : Nat),
      b0.toNat = s.params.dacCmdMultiwrite.toNat * 8 + ch * 2 + s.params.dacUdac.toNat ∧
      b1.toNat = min vref 1 * 128 + min pd 3 * 32 + min gain 1 * 16 + d / 256 ∧
      b2.toNat = d % 256 ∧
      (s.params.dacMax < 4096 → (d : Int) = min (max data 0) s.params.dacMax) ∧
      (s.params.Stated → b0.toNat = 0b01000 * 8 + ch * 2 ∧ (d : Int) = min (max data 0) 4095) ∧
      exec (.dacFrame ch pd gain vref data) s =
        .next (withResult s { ok := true, err := .none, value := .bytes [b0, b1, b2] })) ∧
    (4 ≤ ch → exec (.dacFrame ch pd gain vref data) s =
      .next (withResult s { ok := false, err := .badOperand, value := .nat 0 }))

/-- R202: DAC.SETCFG stores the saturated record of one channel, leaves the others, and sends nothing; the sentinel is
refused with no change. -/
def Obligations.DacSetcfgStoresRecord : Prop :=
  ∀ (ch pd gain vref : Nat) (s : State),
    decode ⟨0x22, [ch, pd, gain, vref]⟩ = .instr (.dacSetcfg ch pd gain vref) ∧
    (∀ c : Fin 4, ch = c.val → ∃ cfg : Vector DacChannel 4,
      (cfg[c].pd.toNat = min pd 3 ∧ cfg[c].gain.toNat = min gain 1 ∧ cfg[c].vref.toNat = min vref 1) ∧
      (∀ k : Fin 4, k ≠ c → cfg[k] = s.dac.cfg[k]) ∧
      exec (.dacSetcfg ch pd gain vref) s =
        .next { withResult s { ok := true, err := .none, value := .nat 0 } with dac := { cfg := cfg } }) ∧
    (4 ≤ ch → exec (.dacSetcfg ch pd gain vref) s =
      .next (withResult s { ok := false, err := .badOperand, value := .nat 0 }))

/-- R203: DAC.WRITE sends the one frame of its channel's record and its clamped data, and succeeds exactly when the
bus took three bytes; the sentinel sends nothing. Nothing but `S.res`, the history and the environment changes. -/
def Obligations.DacWriteSendsFrame : Prop :=
  ∀ (ch : Nat) (data : Int) (s : State),
    decode ⟨0x23, [ch, data]⟩ = .instr (.dacWrite ch data) ∧
    (∀ (c : Fin 4) (w : Draw), ch = c.val → s.Awaits [w] →
      ∃ (b0 b1 b2 : Byte) (d : Nat) (t : Timestamp) (r : Int) (res : Result),
        b0.toNat = s.params.dacCmdMultiwrite.toNat * 8 + ch * 2 + s.params.dacUdac.toNat ∧
        b1.toNat = s.dac.cfg[c].vref.toNat * 128 + s.dac.cfg[c].pd.toNat * 32 + s.dac.cfg[c].gain.toNat * 16 +
          d / 256 ∧
        b2.toNat = d % 256 ∧
        (s.params.dacMax < 4096 → (d : Int) = min (max data 0) s.params.dacMax) ∧
        (s.params.Stated → b0.toNat = 0b01000 * 8 + ch * 2 ∧ (d : Int) = min (max data 0) 4095) ∧
        (r = 3 ↔ 3 ≤ w.result) ∧
        res = (if r = 3 then { ok := true, err := .none, value := .bytes [b0, b1, b2] }
          else { ok := false, err := .bus, value := .nat 0 }) ∧
        s.env.clock.toNat ≤ t.toNat ∧
        exec (.dacWrite ch data) s =
          .next (s.afterRun res [.write s.params.dacBus (dacAddr s.params) [b0, b1, b2] false r] 1 t)) ∧
    (4 ≤ ch → exec (.dacWrite ch data) s =
      .next (withResult s { ok := false, err := .badOperand, value := .nat 0 }))

/-- 42_dac.md R204 and 30_encoding.md R95, in every environment: DAC.WRITEALL issues one frame per channel in order,
each whatever the bus answered to the one before, and leaves the configuration table as it was. -/
def Obligations.DacWriteallIssuesEveryChannel : Prop :=
  ∀ (d0 d1 d2 d3 : Int) (s : State), ∃ (t : State) (r0 r1 r2 r3 : Int),
    pseudoDacWriteall d0 d1 d2 d3 s = .next t ∧
    t.dac = s.dac ∧ t.adc = s.adc ∧ t.ee = s.ee ∧ KeepsPbuf s t ∧
    (∃ evs, t.history = evs ++ s.history ∧ transfers evs =
      [.write s.params.dacBus (dacAddr s.params) (dacFrame s.params 3 s.dac.cfg[3] (clamp12 s.params d3)) false r3,
       .write s.params.dacBus (dacAddr s.params) (dacFrame s.params 2 s.dac.cfg[2] (clamp12 s.params d2)) false r2,
       .write s.params.dacBus (dacAddr s.params) (dacFrame s.params 1 s.dac.cfg[1] (clamp12 s.params d1)) false r1,
       .write s.params.dacBus (dacAddr s.params) (dacFrame s.params 0 s.dac.cfg[0] (clamp12 s.params d0)) false r0])

/-! ### ADC unit -/

/-- R175: ADC.CONFIG stores the six saturated fields and drops the cache, and is refused with BUSY and no change while
a conversion is pending. -/
def Obligations.AdcConfigSetsShadow : Prop :=
  ∀ (pga dr cmode cpol clat cque : Nat) (s : State),
    decode ⟨0x10, [pga, dr, cmode, cpol, clat, cque]⟩ = .instr (.adcConfig pga dr cmode cpol clat cque) ∧
    (s.adc.phase ≠ .converting → ∃ a : AdcState,
      a.pga.toNat = min pga 5 ∧ a.dr.toNat = min dr 7 ∧ a.cmode.toNat = min cmode 1 ∧ a.cpol.toNat = min cpol 1 ∧
      a.clat.toNat = min clat 1 ∧ a.cque.toNat = min cque 3 ∧ a.cacheValid = false ∧
      a.phase = s.adc.phase ∧ a.deadline = s.adc.deadline ∧ a.lastRead = s.adc.lastRead ∧
      a.cacheChannel = s.adc.cacheChannel ∧
      exec (.adcConfig pga dr cmode cpol clat cque) s =
        .next { withResult s { ok := true, err := .none, value := .nat 0 } with adc := a }) ∧
    (s.adc.phase = .converting → exec (.adcConfig pga dr cmode cpol clat cque) s =
      .next (withResult s { ok := false, err := .busy, value := .nat 0 }))

/-- R174: the configuration word of ADC.START has the start bit, the channel, the shadow fields and the mode at their
places, and `COMP_DEFAULT` in the comparator bits on the base variant: it is the word that CODEC.PACK packs of those
fields. -/
def Obligations.StartWordLayout : Prop :=
  ∀ (s : State) (c : BitVec 3) (md : BitVec 1),
    (s.startWord c md).toNat = 2 ^ 15 + c.toNat * 2 ^ 12 + s.adc.pga.toNat * 2 ^ 9 + md.toNat * 2 ^ 8 +
      s.adc.dr.toNat * 2 ^ 5 +
      (if s.params.adcHasComparator then
        s.adc.cmode.toNat * 2 ^ 4 + s.adc.cpol.toNat * 2 ^ 3 + s.adc.clat.toNat * 2 ^ 2 + s.adc.cque.toNat
      else s.params.compDefault.toNat) ∧
    s.startWord c md = packFields
      { os := 1, mux := c, pga := s.adc.pga, mode := md, dr := s.adc.dr
        cmode := if s.params.adcHasComparator then s.adc.cmode else s.params.compDefault.extractLsb' 4 1
        cpol := if s.params.adcHasComparator then s.adc.cpol else s.params.compDefault.extractLsb' 3 1
        clat := if s.params.adcHasComparator then s.adc.clat else s.params.compDefault.extractLsb' 2 1
        cque := if s.params.adcHasComparator then s.adc.cque else s.params.compDefault.extractLsb' 0 2 }

/-- R172: ADC.START is refused while a conversion is pending; otherwise it writes the configuration register, drops the
cache, and enters CONVERTING with the deadline counted from the clock after the write, or ERROR where the bus did not
take the three bytes. -/
def Obligations.AdcStartOutcomes : Prop :=
  ∀ (ch mode : Nat) (s : State),
    decode ⟨0x11, [ch, mode]⟩ = .instr (.adcStart ch mode) ∧
    (s.adc.phase = .converting → exec (.adcStart ch mode) s =
      .next (withResult s { ok := false, err := .busy, value := .nat 0 })) ∧
    (∀ d e : Draw, s.adc.phase ≠ .converting → s.Awaits [d, e] → 3 ≤ d.result →
      ∃ (w : Half) (t : Timestamp),
        w = s.startWord (BitVec.ofNat 3 (min ch 7)) (BitVec.ofNat 1 (min mode 1)) ∧
        s.env.clock.toNat ≤ t.toNat ∧
        exec (.adcStart ch mode) s = .next
          { s with
            adc := { s.adc with phase := .converting, cacheValid := false,
                                deadline := t + BitVec.ofNat 64 (latencyOf s.params s.adc.dr) }
            res := { ok := true, err := .none, value := .word w }
            history := .result { ok := true, err := .none, value := .word w } ::
              .write s.params.adcBus s.params.adcAddr (0x01 :: bigEndianBytes w.toNat) false 3 :: s.history
            env := envAfter s 2 t }) ∧
    (∀ d : Draw, s.adc.phase ≠ .converting → s.Awaits [d] → d.result < 3 →
      ∃ (w : Half) (t : Timestamp) (r : Int),
        w = s.startWord (BitVec.ofNat 3 (min ch 7)) (BitVec.ofNat 1 (min mode 1)) ∧
        s.env.clock.toNat ≤ t.toNat ∧ r < 3 ∧
        exec (.adcStart ch mode) s = .next
          { s with
            adc := { s.adc with phase := .error, cacheValid := false }
            res := { ok := false, err := .bus, value := .nat 0 }
            history := .result { ok := false, err := .bus, value := .nat 0 } ::
              .write s.params.adcBus s.params.adcAddr (0x01 :: bigEndianBytes w.toNat) false r :: s.history
            env := envAfter s 1 t })

/-- ADC.COMPLETE of 41_adc.md, conversion done at the first attempt: it sleeps to the deadline, reads the configuration
back, then the conversion, and keeps the signed count. -/
def Obligations.AdcCompleteReadsConversion : Prop :=
  ∀ (ch : Nat) (s : State) (z p1 c1 p2 c2 : Draw),
    s.adc.phase = .converting → 0 < s.params.adcCompleteTries → s.Awaits [z, p1, c1, p2, c2] →
    1 ≤ p1.result → 2 ≤ c1.result → ReadsBack c1 (min ch 7) 1 → 1 ≤ p2.result → 2 ≤ c2.result →
    ∃ (v : Half) (t : Timestamp),
      v.toNat = bigEndian c2.data[0] c2.data[1] ∧
      s.env.clock.toNat ≤ t.toNat ∧ s.adc.deadline.toNat ≤ t.toNat ∧
      exec (.adcComplete ch) s = .next
        { s with
          adc := { s.adc with phase := .ready, lastRead := v, cacheValid := true,
                              cacheChannel := BitVec.ofNat 3 (min ch 7) }
          res := { ok := true, err := .none, value := .count v }
          history := .result { ok := true, err := .none, value := .count v } ::
            (registerReadEvents s.params 0x00 c2 ++ registerReadEvents s.params 0x01 c1 ++
              .sleep s.adc.deadline :: s.history)
          env := envAfter s 5 t }

/-- ADC.COMPLETE of 41_adc.md: a readback of another channel ends it with MISMATCH and phase ERROR whatever the status
bit says, with no further transaction and the last count kept: at the first attempt, or at the second after a first that
read OS = 0, with or without `ADC_RETRY_REARM`. -/
def Obligations.AdcCompleteChannelMismatch : Prop :=
  ∀ (ch os other : Nat) (s : State) (z p1 c1 n z' p2 c2 : Draw),
    s.adc.phase = .converting → 1 ≤ p1.result → 2 ≤ c1.result → other ≠ min ch 7 →
    (0 < s.params.adcCompleteTries → s.Awaits [z, p1, c1] → ReadsBack c1 other os →
      ∃ t : Timestamp, s.env.clock.toNat ≤ t.toNat ∧ s.adc.deadline.toNat ≤ t.toNat ∧
        exec (.adcComplete ch) s = .next
          { s.afterRun { ok := false, err := .mismatch, value := .nat 0 }
              (attemptEvents s.params s.adc.deadline c1) 3 t with
            adc := { s.adc with phase := .error } }) ∧
    (1 < s.params.adcCompleteTries → s.Awaits (firstAttempt s.params z p1 c1 n ++ [z', p2, c2]) →
      ReadsBack c1 (min ch 7) 0 → 1 ≤ p2.result → 2 ≤ c2.result → ReadsBack c2 other os →
      ∃ t1 t2 dl : Timestamp, s.adc.deadline.toNat ≤ t1.toNat ∧ dl = s.secondDeadline t1 ∧
        t1.toNat ≤ t2.toNat ∧ dl.toNat ≤ t2.toNat ∧
        exec (.adcComplete ch) s = .next
          { s.afterRun { ok := false, err := .mismatch, value := .nat 0 }
              (attemptEvents s.params dl c2 ++ attemptEvents s.params s.adc.deadline c1)
              ((firstAttempt s.params z p1 c1 n).length + 3) t2 with
            adc := { s.adc with phase := .error, deadline := dl } })

/-- ADC.COMPLETE of 41_adc.md: where a transaction falls short it ends with BUS and phase ERROR, the last count kept.
After a pointer write that was not taken no read is issued. The first part is for the first attempt, the second for the
second attempt after a first that read OS = 0, with or without `ADC_RETRY_REARM`: each for a pointer write or a read of
the configuration register, and of the conversion register, that fell short. -/
def Obligations.AdcCompleteBusFailure : Prop :=
  ∀ (ch : Nat) (s : State) (z p1 c1 n z' p2 c2 p3 c3 : Draw), s.adc.phase = .converting →
    (0 < s.params.adcCompleteTries →
      (s.Awaits [z, p1] → p1.result < 1 → ∃ (t : Timestamp) (r : Int), r < 1 ∧
        exec (.adcComplete ch) s = .next
          { s.afterRun { ok := false, err := .bus, value := .nat 0 }
              [.write s.params.adcBus s.params.adcAddr [0x01] true r, .sleep s.adc.deadline] 2 t with
            adc := { s.adc with phase := .error } }) ∧
      (s.Awaits [z, p1, c1] → 1 ≤ p1.result → c1.result < 2 → ∃ (t : Timestamp) (r : Int) (data : List Byte), r < 2 ∧
        exec (.adcComplete ch) s = .next
          { s.afterRun { ok := false, err := .bus, value := .nat 0 }
              [.read s.params.adcBus s.params.adcAddr 2 false r data,
               .write s.params.adcBus s.params.adcAddr [0x01] true 1, .sleep s.adc.deadline] 3 t with
            adc := { s.adc with phase := .error } }) ∧
      (s.Awaits [z, p1, c1, p2] → 1 ≤ p1.result → 2 ≤ c1.result → ReadsBack c1 (min ch 7) 1 → p2.result < 1 →
        ∃ (t : Timestamp) (r : Int), r < 1 ∧
        exec (.adcComplete ch) s = .next
          { s.afterRun { ok := false, err := .bus, value := .nat 0 }
              (.write s.params.adcBus s.params.adcAddr [0x00] true r :: attemptEvents s.params s.adc.deadline c1) 4 t with
            adc := { s.adc with phase := .error } }) ∧
      (s.Awaits [z, p1, c1, p2, c2] → 1 ≤ p1.result → 2 ≤ c1.result → ReadsBack c1 (min ch 7) 1 → 1 ≤ p2.result →
        c2.result < 2 → ∃ (t : Timestamp) (r : Int) (data : List Byte), r < 2 ∧
        exec (.adcComplete ch) s = .next
          { s.afterRun { ok := false, err := .bus, value := .nat 0 }
              (.read s.params.adcBus s.params.adcAddr 2 false r data ::
                .write s.params.adcBus s.params.adcAddr [0x00] true 1 :: attemptEvents s.params s.adc.deadline c1) 5 t with
            adc := { s.adc with phase := .error } })) ∧
    (1 < s.params.adcCompleteTries → 1 ≤ p1.result → 2 ≤ c1.result → ReadsBack c1 (min ch 7) 0 →
      (s.Awaits (firstAttempt s.params z p1 c1 n ++ [z', p2]) → p2.result < 1 →
        ∃ (t1 t2 dl : Timestamp) (r : Int), s.adc.deadline.toNat ≤ t1.toNat ∧ dl = s.secondDeadline t1 ∧ r < 1 ∧
        exec (.adcComplete ch) s = .next
          { s.afterRun { ok := false, err := .bus, value := .nat 0 }
              (.write s.params.adcBus s.params.adcAddr [0x01] true r :: .sleep dl ::
                attemptEvents s.params s.adc.deadline c1)
              ((firstAttempt s.params z p1 c1 n).length + 2) t2 with
            adc := { s.adc with phase := .error, deadline := dl } }) ∧
      (s.Awaits (firstAttempt s.params z p1 c1 n ++ [z', p2, c2]) → 1 ≤ p2.result → c2.result < 2 →
        ∃ (t1 t2 dl : Timestamp) (r : Int) (data : List Byte),
        s.adc.deadline.toNat ≤ t1.toNat ∧ dl = s.secondDeadline t1 ∧ r < 2 ∧
        exec (.adcComplete ch) s = .next
          { s.afterRun { ok := false, err := .bus, value := .nat 0 }
              (.read s.params.adcBus s.params.adcAddr 2 false r data ::
                .write s.params.adcBus s.params.adcAddr [0x01] true 1 :: .sleep dl ::
                attemptEvents s.params s.adc.deadline c1)
              ((firstAttempt s.params z p1 c1 n).length + 3) t2 with
            adc := { s.adc with phase := .error, deadline := dl } }) ∧
      (s.Awaits (firstAttempt s.params z p1 c1 n ++ [z', p2, c2, p3]) → 1 ≤ p2.result → 2 ≤ c2.result →
        ReadsBack c2 (min ch 7) 1 → p3.result < 1 →
        ∃ (t1 t2 dl : Timestamp) (r : Int), s.adc.deadline.toNat ≤ t1.toNat ∧ dl = s.secondDeadline t1 ∧ r < 1 ∧
        exec (.adcComplete ch) s = .next
          { s.afterRun { ok := false, err := .bus, value := .nat 0 }
              (.write s.params.adcBus s.params.adcAddr [0x00] true r ::
                (attemptEvents s.params dl c2 ++ attemptEvents s.params s.adc.deadline c1))
              ((firstAttempt s.params z p1 c1 n).length + 4) t2 with
            adc := { s.adc with phase := .error, deadline := dl } }) ∧
      (s.Awaits (firstAttempt s.params z p1 c1 n ++ [z', p2, c2, p3, c3]) → 1 ≤ p2.result → 2 ≤ c2.result →
        ReadsBack c2 (min ch 7) 1 → 1 ≤ p3.result → c3.result < 2 →
        ∃ (t1 t2 dl : Timestamp) (r : Int) (data : List Byte),
        s.adc.deadline.toNat ≤ t1.toNat ∧ dl = s.secondDeadline t1 ∧ r < 2 ∧
        exec (.adcComplete ch) s = .next
          { s.afterRun { ok := false, err := .bus, value := .nat 0 }
              (.read s.params.adcBus s.params.adcAddr 2 false r data ::
                .write s.params.adcBus s.params.adcAddr [0x00] true 1 ::
                (attemptEvents s.params dl c2 ++ attemptEvents s.params s.adc.deadline c1))
              ((firstAttempt s.params z p1 c1 n).length + 5) t2 with
            adc := { s.adc with phase := .error, deadline := dl } }))

/-- ADC.COMPLETE of 41_adc.md: when both of two attempts read OS = 0 it reports PENDING and the phase stays CONVERTING;
under `ADC_RETRY_REARM` the deadline has moved once, between the attempts, and without it not at all. With no attempt
allowed it reports PENDING with no transaction. -/
def Obligations.AdcCompletePendingAfterTwoAttempts : Prop :=
  ∀ (ch : Nat) (s : State) (z p1 c1 n z' p2 c2 : Draw), s.adc.phase = .converting →
    (s.params.adcCompleteTries = 2 → s.Awaits (firstAttempt s.params z p1 c1 n ++ [z', p2, c2]) →
      1 ≤ p1.result → 2 ≤ c1.result → ReadsBack c1 (min ch 7) 0 →
      1 ≤ p2.result → 2 ≤ c2.result → ReadsBack c2 (min ch 7) 0 →
      ∃ t1 t2 dl : Timestamp,
        s.adc.deadline.toNat ≤ t1.toNat ∧ t1.toNat ≤ t2.toNat ∧ dl.toNat ≤ t2.toNat ∧ dl = s.secondDeadline t1 ∧
        exec (.adcComplete ch) s = .next
          { s.afterRun { ok := false, err := .pending, value := .nat 0 }
              (attemptEvents s.params dl c2 ++ attemptEvents s.params s.adc.deadline c1)
              ((firstAttempt s.params z p1 c1 n).length + 3) t2 with
            adc := { s.adc with deadline := dl } }) ∧
    (s.params.adcCompleteTries = 0 → exec (.adcComplete ch) s =
      .next (withResult s { ok := false, err := .pending, value := .nat 0 }))

/-- ADC.COMPLETE of 41_adc.md: an attempt that reads OS = 0 is followed by one that sleeps to a new deadline under
`ADC_RETRY_REARM`, and to the same one without it, and a conversion found done then is read as at the first attempt. -/
def Obligations.AdcCompleteSecondAttempt : Prop :=
  ∀ (ch : Nat) (s : State) (z p1 c1 n z' p2 c2 p3 c3 : Draw),
    s.adc.phase = .converting → 1 < s.params.adcCompleteTries →
    s.Awaits (firstAttempt s.params z p1 c1 n ++ [z', p2, c2, p3, c3]) →
    1 ≤ p1.result → 2 ≤ c1.result → ReadsBack c1 (min ch 7) 0 →
    1 ≤ p2.result → 2 ≤ c2.result → ReadsBack c2 (min ch 7) 1 → 1 ≤ p3.result → 2 ≤ c3.result →
    ∃ (v : Half) (t1 t2 dl : Timestamp),
      v.toNat = bigEndian c3.data[0] c3.data[1] ∧
      s.adc.deadline.toNat ≤ t1.toNat ∧ t1.toNat ≤ t2.toNat ∧ dl.toNat ≤ t2.toNat ∧ dl = s.secondDeadline t1 ∧
      exec (.adcComplete ch) s = .next
        { s.afterRun { ok := true, err := .none, value := .count v }
            (registerReadEvents s.params 0x00 c3 ++ attemptEvents s.params dl c2 ++
              attemptEvents s.params s.adc.deadline c1)
            ((firstAttempt s.params z p1 c1 n).length + 5) t2 with
          adc := { s.adc with phase := .ready, lastRead := v, cacheValid := true, deadline := dl,
                              cacheChannel := BitVec.ofNat 3 (min ch 7) } }

/-- ADC.COMPLETE of 41_adc.md: with no conversion pending it is refused, in every environment, with no change. -/
def Obligations.AdcCompleteNotConverting : Prop :=
  ∀ (ch : Nat) (s : State), s.adc.phase ≠ .converting →
    exec (.adcComplete ch) s = .next (withResult s { ok := false, err := .notConverting, value := .nat 0 })

/-- ADC.READC of 41_adc.md, cache hit: not forced, the cache valid for this channel, and the clock it reads before the
deadline. It issues no transaction and changes no state but `S.res`. -/
def Obligations.AdcReadcCacheHit : Prop :=
  ∀ (ch : Nat) (s : State), s.adc.cacheValid = true → s.adc.cacheChannel.toNat = min ch 7 →
    s.env.clock.toNat + (s.drawAt 0).advance < s.adc.deadline.toNat →
    ∃ t : Timestamp, t.toNat = s.env.clock.toNat + (s.drawAt 0).advance ∧
      exec (.adcReadc ch false) s = .next
        { withResult s { ok := true, err := .none, value := .count s.adc.lastRead } with env := envAfter s 1 t }

/-- ADC.READC of 41_adc.md where the cache cannot answer (a forced refresh, no valid cache, or another channel) and no
conversion is pending: a single-shot START, the completion, and a new deadline counted from the clock then. -/
def Obligations.AdcReadcConverts : Prop :=
  ∀ (ch : Nat) (force : Bool) (s : State) (w0 n0 z p1 c1 p2 c2 n1 : Draw),
    (force = true ∨ s.adc.cacheValid = false ∨ s.adc.cacheChannel.toNat ≠ min ch 7) →
    s.adc.phase ≠ .converting → 0 < s.params.adcCompleteTries →
    s.Awaits [w0, n0, z, p1, c1, p2, c2, n1] → 3 ≤ w0.result →
    1 ≤ p1.result → 2 ≤ c1.result → ReadsBack c1 (min ch 7) 1 → 1 ≤ p2.result → 2 ≤ c2.result →
    ∃ (w v : Half) (t0 t1 dl : Timestamp),
      w = s.startWord (BitVec.ofNat 3 (min ch 7)) 1 ∧ v.toNat = bigEndian c2.data[0] c2.data[1] ∧
      dl = t0 + BitVec.ofNat 64 (latencyOf s.params s.adc.dr) ∧
      s.env.clock.toNat ≤ t0.toNat ∧ t0.toNat ≤ t1.toNat ∧ dl.toNat ≤ t1.toNat ∧
      exec (.adcReadc ch force) s = .next
        { s with
          adc := { s.adc with phase := .ready, lastRead := v, cacheValid := true,
                              deadline := t1 + BitVec.ofNat 64 (latencyOf s.params s.adc.dr),
                              cacheChannel := BitVec.ofNat 3 (min ch 7) }
          res := { ok := true, err := .none, value := .count v }
          history := .result { ok := true, err := .none, value := .count v } ::
            (registerReadEvents s.params 0x00 c2 ++ registerReadEvents s.params 0x01 c1 ++ .sleep dl ::
              .write s.params.adcBus s.params.adcAddr (0x01 :: bigEndianBytes w.toNat) false 3 :: s.history)
          env := envAfter s 8 t1 }

/-- ADC.READC of 41_adc.md: a valid cache of the same channel whose deadline the clock has reached does not answer; the
block starts a single-shot conversion. Where the bus takes the start and the conversion is done at the first attempt, it
is read, and the new deadline is counted from the clock then; where the bus does not take the start, READC ends in ERROR
with the cache dropped. -/
def Obligations.AdcReadcExpiredCacheConverts : Prop :=
  ∀ (ch : Nat) (s : State) (n w0 n0 z p1 c1 p2 c2 n1 : Draw),
    s.adc.cacheValid = true → s.adc.cacheChannel.toNat = min ch 7 → s.adc.phase ≠ .converting →
    s.adc.deadline.toNat ≤ s.env.clock.toNat + n.advance →
    (s.Awaits [n, w0, n0, z, p1, c1, p2, c2, n1] → 0 < s.params.adcCompleteTries → 3 ≤ w0.result →
      1 ≤ p1.result → 2 ≤ c1.result → ReadsBack c1 (min ch 7) 1 → 1 ≤ p2.result → 2 ≤ c2.result →
      ∃ (v : Half) (t0 t1 dl : Timestamp),
        v.toNat = bigEndian c2.data[0] c2.data[1] ∧ dl = t0 + BitVec.ofNat 64 (latencyOf s.params s.adc.dr) ∧
        s.env.clock.toNat ≤ t0.toNat ∧ t0.toNat ≤ t1.toNat ∧ dl.toNat ≤ t1.toNat ∧
        exec (.adcReadc ch false) s = .next
          { s.afterRun { ok := true, err := .none, value := .count v }
              (registerReadEvents s.params 0x00 c2 ++ attemptEvents s.params dl c1 ++ [s.startEvent ch 1 3]) 9 t1 with
            adc := { s.adc with phase := .ready, lastRead := v, cacheValid := true,
                                deadline := t1 + BitVec.ofNat 64 (latencyOf s.params s.adc.dr),
                                cacheChannel := BitVec.ofNat 3 (min ch 7) } }) ∧
    (s.Awaits [n, w0] → w0.result < 3 → ∃ (t : Timestamp) (r : Int), r < 3 ∧
      exec (.adcReadc ch false) s = .next
        { s.afterRun { ok := false, err := .bus, value := .nat 0 } [s.startEvent ch 1 r] 2 t with
          adc := { s.adc with phase := .error, cacheValid := false } })

/-- ADC.READC of 41_adc.md with a conversion pending: it resumes that one and writes no configuration word. -/
def Obligations.AdcReadcResumesPending : Prop :=
  ∀ (ch : Nat) (force : Bool) (s : State) (z p1 c1 p2 c2 n1 : Draw),
    (force = true ∨ s.adc.cacheValid = false ∨ s.adc.cacheChannel.toNat ≠ min ch 7) →
    s.adc.phase = .converting → 0 < s.params.adcCompleteTries → s.Awaits [z, p1, c1, p2, c2, n1] →
    1 ≤ p1.result → 2 ≤ c1.result → ReadsBack c1 (min ch 7) 1 → 1 ≤ p2.result → 2 ≤ c2.result →
    ∃ (v : Half) (t1 : Timestamp),
      v.toNat = bigEndian c2.data[0] c2.data[1] ∧ s.adc.deadline.toNat ≤ t1.toNat ∧
      exec (.adcReadc ch force) s = .next
        { s with
          adc := { s.adc with phase := .ready, lastRead := v, cacheValid := true,
                              deadline := t1 + BitVec.ofNat 64 (latencyOf s.params s.adc.dr),
                              cacheChannel := BitVec.ofNat 3 (min ch 7) }
          res := { ok := true, err := .none, value := .count v }
          history := .result { ok := true, err := .none, value := .count v } ::
            (registerReadEvents s.params 0x00 c2 ++ registerReadEvents s.params 0x01 c1 ++
              .sleep s.adc.deadline :: s.history)
          env := envAfter s 6 t1 }

/-- R177: ADC.STATUS gives the whole conversion state and changes nothing; the phase codes are 0 to 3. -/
def Obligations.AdcStatusReportsState : Prop :=
  (∀ s : State, decode ⟨0x14, []⟩ = .instr .adcStatus ∧
    exec .adcStatus s = .next (withResult s { ok := true, err := .none, value := .status s.adc })) ∧
  Phase.code .idle = 0 ∧ Phase.code .converting = 1 ∧ Phase.code .ready = 2 ∧ Phase.code .error = 3

/-- R95: ADC.CONVERT is a START, and the COMPLETE of the same channel only after a START that succeeded; EE.STARTUP is a
signature check, and a format followed by an initialize only after a check that failed. -/
def Obligations.PseudoOperationsSequence : Prop :=
  (∀ (ch mode : Nat) (s : State), ∃ a, exec (.adcStart ch mode) s = .next a ∧
    pseudoAdcConvert ch mode s = if a.res.ok then exec (.adcComplete ch) a else .next a) ∧
  (∀ s : State, ∃ c f, exec .eeChecksig s = .next c ∧ exec .eeFormat c = .next f ∧
    pseudoEeStartup s = if c.res.ok then .next c else exec .eeInit f)

/-- The table of 10_state.md R29, in every environment: START, COMPLETE and READC alone move the phase, and only along
its rows. CONVERTING is entered, and so ERROR left, only by a configuration write that the bus took (of START, or
embedded in READC, where it is the first transaction); a write it did not take leaves ERROR. -/
def Obligations.PhaseMovesOnlyByTable : Prop :=
  ∀ (i : Instr) (s t : State) (evs : List Event), exec i s = .next t → t.history = evs ++ s.history →
    (∀ ch mode, i = .adcStart ch mode →
      (s.adc.phase = .converting ∧ t.adc.phase = .converting ∧ t.res.err = .busy ∧ transfers evs = []) ∨
      (s.adc.phase ≠ .converting ∧ t.adc.phase = .converting ∧ t.res.err = .none ∧
        transfers evs = [s.startEvent ch mode 3]) ∨
      (s.adc.phase ≠ .converting ∧ t.adc.phase = .error ∧ t.res.err = .bus ∧
        ∃ r, r ≠ 3 ∧ transfers evs = [s.startEvent ch mode r])) ∧
    (∀ ch, i = .adcComplete ch →
      (s.adc.phase ≠ .converting ∧ t.adc = s.adc ∧ t.res.err = .notConverting) ∨
      (s.adc.phase = .converting ∧ t.adc.phase = .ready ∧ t.res.err = .none) ∨
      (s.adc.phase = .converting ∧ t.adc.phase = .error ∧ (t.res.err = .mismatch ∨ t.res.err = .bus)) ∨
      (s.adc.phase = .converting ∧ t.adc.phase = .converting ∧ t.res.err = .pending)) ∧
    (∀ ch force, i = .adcReadc ch force →
      (t.adc = s.adc ∧ s.adc.cacheValid = true ∧ t.res.err = .none ∧ transfers evs = []) ∨
      (s.adc.phase ≠ .converting ∧ t.adc.phase = .error ∧ t.res.err = .bus ∧
        ∃ r, r ≠ 3 ∧ transfers evs = [s.startEvent ch 1 r]) ∨
      ((s.adc.phase = .converting ∨ ∃ later, transfers evs = later ++ [s.startEvent ch 1 3]) ∧
        ((t.adc.phase = .ready ∧ t.res.err = .none) ∨
          (t.adc.phase = .error ∧ (t.res.err = .mismatch ∨ t.res.err = .bus)) ∨
          (t.adc.phase = .converting ∧ t.res.err = .pending)))) ∧
    (¬IsAdcStart i → ¬IsAdcComplete i → ¬IsAdcReadc i → t.adc.phase = s.adc.phase)

/-- The invariant (b) of 41_adc.md section 3, in every environment: a completion that fails never writes the last
count, and after MISMATCH or BUS the phase is ERROR. -/
def Obligations.FailedCompletionKeepsCount : Prop :=
  ∀ (ch : Nat) (s t : State), exec (.adcComplete ch) s = .next t → t.res.ok = false →
    t.adc.lastRead = s.adc.lastRead ∧ t.adc.cacheValid = s.adc.cacheValid ∧ t.res.value = .nat 0 ∧
    (t.res.err = .mismatch ∨ t.res.err = .bus → t.adc.phase = .error)

/-! ### EEPROM unit -/

/-- R220, for the operations that take a page id: an id of `EE_PAGES` or more (128, with the stated parameters) is
refused before any sleep or transaction. -/
def Obligations.PageIdCheckedFirst : Prop :=
  ∀ (id : Nat) (s : State), s.params.eePages ≤ id ∨ (s.params.Stated ∧ 128 ≤ id) →
    exec (.eeRead id) s = .next (withResult s { ok := false, err := .badOperand, value := .nat 0 }) ∧
    exec (.eeWrite id) s = .next (withResult s { ok := false, err := .badOperand, value := .nat 0 })

/-- R221: EE.READ of a valid page. After the wait that `READ_WAITS_FOR_READY` may ask for, it writes the page's address
holding the bus and reads 32 bytes into PBUF; an address not taken leaves PBUF alone; a short read leaves 32
unspecified bytes in it. -/
def Obligations.EeReadFillsPbuf : Prop :=
  ∀ (id : Nat) (s : State) (pre : List Draw) (w r g : Draw),
    decode ⟨0x30, [id]⟩ = .instr (.eeRead id) ∧ (s.params.eePages ≤ id →
      exec (.eeRead id) s = .next (withResult s { ok := false, err := .badOperand, value := .nat 0 })) ∧
    (id < s.params.eePages →
    pre.length = (if s.params.readWaitsForReady then 1 else 0) →
    (s.Awaits (pre ++ [w, r]) → 2 ≤ w.result → 32 ≤ r.result → ∃ (m : Memory) (t : Timestamp),
      (∀ a, m.lookup a = if h : a < 32 then some r.data[a] else s.pbuf.lookup a) ∧
      exec (.eeRead id) s = .next
        { s with
          pbuf := m
          res := { ok := true, err := .none, value := .nat 0 }
          history := .result { ok := true, err := .none, value := .nat 0 } ::
            .read s.params.eeBus (eeAddr s.params) 32 false 32 r.data.toList ::
            .write s.params.eeBus (eeAddr s.params) (bigEndianBytes (id * s.params.eePageSize)) true 2 ::
            ((if s.params.readWaitsForReady then [.sleep s.ee.readyTime] else []) ++ s.history)
          env := envAfter s (pre.length + 2) t }) ∧
    (s.Awaits (pre ++ [w]) → w.result < 2 → ∃ (t : Timestamp) (k : Int), k < 2 ∧
      exec (.eeRead id) s = .next
        { s with
          res := { ok := false, err := .bus, value := .nat 0 }
          history := .result { ok := false, err := .bus, value := .nat 0 } ::
            .write s.params.eeBus (eeAddr s.params) (bigEndianBytes (id * s.params.eePageSize)) true k ::
            ((if s.params.readWaitsForReady then [.sleep s.ee.readyTime] else []) ++ s.history)
          env := envAfter s (pre.length + 1) t }) ∧
    (s.Awaits (pre ++ [w, r, g]) → 2 ≤ w.result → r.result < 32 →
      ∃ (m : Memory) (t : Timestamp) (k : Int) (data : List Byte), k < 32 ∧
      (∀ a, m.lookup a = if h : a < 32 then some g.data[a] else s.pbuf.lookup a) ∧
      exec (.eeRead id) s = .next
        { s with
          pbuf := m
          res := { ok := false, err := .bus, value := .nat 0 }
          history := .result { ok := false, err := .bus, value := .nat 0 } ::
            .read s.params.eeBus (eeAddr s.params) 32 false k data ::
            .write s.params.eeBus (eeAddr s.params) (bigEndianBytes (id * s.params.eePageSize)) true 2 ::
            ((if s.params.readWaitsForReady then [.sleep s.ee.readyTime] else []) ++ s.history)
          env := envAfter s (pre.length + 3) t }))

/-- R222, with the bound of 43_eeprom.md section 3, in every environment: EE.READY sleeps and probes, at most `tries`
times, stops at the first acknowledged probe, and reports NOT_READY after exactly `tries` that failed. Its first sleep
is to the ready time recorded before, each later one to the clock read after the failed probe plus `EE_SETTLE_US`, which
is then the ready time; no probe moves it but a failed one that another follows. That a sleep is an event also when its
time has passed is the model's reading of the history (log entry 8). -/
def Obligations.ReadyGateProbes : Prop :=
  ∀ (tries : Nat) (s : State), ∃ (t : State) (rounds : List (Timestamp × Int)),
    exec (.eeReady tries) s = .next t ∧
    t = { s with ee := t.ee, res := t.res, history := t.history, env := t.env } ∧
    t.history = .result t.res :: gateEvents s.params rounds ++ s.history ∧
    rounds.length ≤ tries ∧
    s.GateRounds 0 s.env.clock s.ee.readyTime rounds ∧
    t.ee.readyTime = (rounds.getLast?.map Prod.fst).getD s.ee.readyTime ∧
    ((t.res = { ok := true, err := .none, value := .nat 0 } ∧
        ∃ before k, rounds = before ++ [k] ∧ k.2 = 0 ∧ ∀ b ∈ before, b.2 ≠ 0) ∨
      (t.res = { ok := false, err := .notReady, value := .nat 0 } ∧
        rounds.length = tries ∧ ∀ b ∈ rounds, b.2 ≠ 0))

/-- R222 after any number of failed probes: where tries remain and the device acknowledges the next probe, EE.READY
succeeds there; where that probe was the last and fails too, it reports NOT_READY. The ready time left is the one the
last sleep waited for: the old one, or the clock after the failed probe before it plus `EE_SETTLE_US`. That a sleep is
an event also when its time has passed is the model's reading of the history (log entry 8). -/
def Obligations.ReadyProbeOutcomes : Prop :=
  ∀ (tries : Nat) (s : State) (fails : List (Draw × Draw × Draw)) (z p : Draw),
    s.Awaits (roundDraws fails ++ [z, p]) → (∀ f ∈ fails, f.2.1.result < 0) →
    (fails.length < tries → 0 ≤ p.result →
      ∃ (before : List (Timestamp × Int)) (ready t : Timestamp),
        before.length = fails.length ∧ (∀ b ∈ before, b.2 < 0) ∧
        s.GateRounds 0 s.env.clock s.ee.readyTime (before ++ [(ready, 0)]) ∧
        ready.toNat ≤ t.toNat ∧ s.env.clock.toNat ≤ t.toNat ∧
        exec (.eeReady tries) s = .next
          { s.afterRun { ok := true, err := .none, value := .nat 0 } (gateEvents s.params (before ++ [(ready, 0)]))
              (3 * fails.length + 2) t with
            ee := { readyTime := ready } }) ∧
    (fails.length + 1 = tries → p.result < 0 →
      ∃ (before : List (Timestamp × Int)) (ready t : Timestamp) (r : Int),
        before.length = fails.length ∧ (∀ b ∈ before, b.2 < 0) ∧ r < 0 ∧
        s.GateRounds 0 s.env.clock s.ee.readyTime (before ++ [(ready, r)]) ∧
        ready.toNat ≤ t.toNat ∧ s.env.clock.toNat ≤ t.toNat ∧
        exec (.eeReady tries) s = .next
          { s.afterRun { ok := false, err := .notReady, value := .nat 0 } (gateEvents s.params (before ++ [(ready, r)]))
              (3 * fails.length + 2) t with
            ee := { readyTime := ready } })

/-- EE.WRITE of 43_eeprom.md with a written PBUF `b`, after any number of failed probes that leaves a try, and then a
probe that is acknowledged: one 34-byte transaction of the page's address and PBUF. Where it is taken the ready time is
the clock after it plus `EE_SETTLE_US`; where it is not the result is BUS, and the ready time is the one the gate left.
PBUF is not changed. That a sleep is an event also when its time has passed is the model's reading of the history (log
entry 8). -/
def Obligations.EeWriteSendsPage : Prop :=
  ∀ (id : Nat) (s : State) (b : Page) (fails : List (Draw × Draw × Draw)) (z p w n : Draw), id < s.params.eePages →
    (∀ a (h : a < 32), s.pbuf.lookup a = some b[a]) →
    fails.length < s.params.eeWriteTries → (∀ f ∈ fails, f.2.1.result < 0) → 0 ≤ p.result →
    (s.Awaits (roundDraws fails ++ [z, p, w, n]) → 34 ≤ w.result →
      ∃ (before : List (Timestamp × Int)) (ready t : Timestamp),
        before.length = fails.length ∧ (∀ k ∈ before, k.2 < 0) ∧
        s.GateRounds 0 s.env.clock s.ee.readyTime (before ++ [(ready, 0)]) ∧
        ready.toNat ≤ t.toNat ∧ s.env.clock.toNat ≤ t.toNat ∧
        exec (.eeWrite id) s = .next
          { s.afterRun { ok := true, err := .none, value := .nat 0 }
              (pageWriteEvent s.params id b.toList 34 :: gateEvents s.params (before ++ [(ready, 0)]))
              (3 * fails.length + 4) t with
            ee := { readyTime := t + BitVec.ofNat 64 s.params.eeSettleUs } }) ∧
    (s.Awaits (roundDraws fails ++ [z, p, w]) → w.result < 34 →
      ∃ (before : List (Timestamp × Int)) (ready t : Timestamp) (r : Int),
        before.length = fails.length ∧ (∀ k ∈ before, k.2 < 0) ∧ r < 34 ∧
        s.GateRounds 0 s.env.clock s.ee.readyTime (before ++ [(ready, 0)]) ∧
        exec (.eeWrite id) s = .next
          { s.afterRun { ok := false, err := .bus, value := .nat 0 }
              (pageWriteEvent s.params id b.toList r :: gateEvents s.params (before ++ [(ready, 0)]))
              (3 * fails.length + 3) t with
            ee := { readyTime := ready } })

/-- EE.WRITE of 43_eeprom.md, in every environment: when it reports NOT_READY it has issued exactly `EE_WRITE_TRIES`
probes (three, with the stated parameters), none acknowledged, and no page write; whatever it reports, PBUF is not
changed. -/
def Obligations.EeWriteGateExhausted : Prop :=
  ∀ (id : Nat) (s t : State), exec (.eeWrite id) s = .next t → KeepsPbuf s t ∧
    (t.res.err = .notReady → ∃ (evs : List Event) (fails : List Int),
      t.history = evs ++ s.history ∧ fails.length = s.params.eeWriteTries ∧ (s.params.Stated → fails.length = 3) ∧
      (∀ r ∈ fails, r ≠ 0) ∧ transfers evs = fails.map (probeEvent s.params))

/-- The marks of R258 and R267: a step that goes on never sets the fault mark and never clears the refusal mark, and
sets it exactly where the host presents a reserved code. -/
def Obligations.MarksAreKept : Prop :=
  ∀ s t : State, step s = .next t → t.faultMark = false ∧
    (t.refusalMark = true ↔
      s.refusalMark = true ∨ ∃ op rest, s.port = .present op :: rest ∧ codeFormat op.code = none)

/-- R224 in every environment: EE.FORMAT draws one page of bytes and attempts it on the pages 0 to `EE_PAGES` - 1 (127,
with the stated parameters) in ascending order, whatever fails, and reports PARTIAL with bit `id` set for exactly the
pages whose attempt failed, or success where there is none. PBUF is left alone. -/
def Obligations.FormatGoesThroughAllPages : Prop :=
  ∀ s : State, s.params.eePages ≤ 128 →
    ∃ (t : State) (evs : List Event) (m : BitVec 128) (segs : Nat → List Event),
    decode ⟨0x33, []⟩ = .instr .eeFormat ∧
    exec .eeFormat s = .next t ∧
    t = { s with ee := t.ee, res := t.res, history := t.history, env := t.env } ∧
    t.history = evs ++ s.history ∧
    (transfers evs).reverse = (List.range s.params.eePages).flatMap segs ∧
    (∀ id, id < s.params.eePages →
      PageAttempt s.params id (s.drawAt 0).data.toList (!m.getLsbD id) (segs id)) ∧
    (∀ id, s.params.eePages ≤ id → m.getLsbD id = false) ∧
    t.res = (if m = 0 then { ok := true, err := .none, value := .nat 0 }
      else { ok := false, err := .partialFail, value := .mask m })

/-- R225 in every environment, with the stated parameters: EE.INIT attempts `INIT_CONTENT` on the pages 0 to 126 and the
signature with 21 unspecified bytes on page 127, in ascending order, whatever fails, and reports as EE.FORMAT does. PBUF
is left alone. -/
def Obligations.InitGoesThroughAllPages : Prop :=
  ∀ s : State, s.params.Stated →
    ∃ (t : State) (evs : List Event) (m : BitVec 128) (segs : Nat → List Event) (pad : List Byte),
    decode ⟨0x34, []⟩ = .instr .eeInit ∧
    exec .eeInit s = .next t ∧
    t = { s with ee := t.ee, res := t.res, history := t.history, env := t.env } ∧
    t.history = evs ++ s.history ∧
    (transfers evs).reverse = (List.range 128).flatMap segs ∧
    (∀ id : Fin 127, PageAttempt s.params id.val s.params.initContent[id].toList (!m.getLsbD id.val) (segs id.val)) ∧
    pad.length = 21 ∧ PageAttempt s.params 127 (signature s.params ++ pad) (!m.getLsbD 127) (segs 127) ∧
    t.res = (if m = 0 then { ok := true, err := .none, value := .nat 0 }
      else { ok := false, err := .partialFail, value := .mask m })

/-- R225 where every transaction succeeds, with the stated parameters: EE.INIT writes `INIT_CONTENT` to pages 0 to 126
and the signature with 21 unspecified bytes to page 127, in ascending order, each write after its probe, and leaves PBUF
alone. -/
def Obligations.InitWritesEveryPage : Prop :=
  ∀ (s : State) (ds : List Draw) (pad : Draw), s.params.Stated → s.Awaits ds → ds.length = 513 → ds[508]? = some pad →
    (∀ d ∈ ds, 34 ≤ d.result) →
    ∃ (t : State) (evs : List Event),
      exec .eeInit s = .next t ∧
      t = { s with ee := t.ee, res := t.res, history := t.history, env := t.env } ∧
      t.res = { ok := true, err := .none, value := .nat 0 } ∧
      t.history = evs ++ s.history ∧
      (transfers evs).reverse =
        ((List.finRange 127).flatMap fun id =>
          [probeEvent s.params 0, pageWriteEvent s.params id.val s.params.initContent[id].toList 34]) ++
        [probeEvent s.params 0,
         pageWriteEvent s.params 127 (signature s.params ++ pad.data.toList.take 21) 34]

/-- R226: EE.CHECKSIG reads the signature page (127, with the stated parameters) and compares its bytes 0 to 10 with the
signature; a read that fails is BUS. PBUF and every unit's state stay as they were. -/
def Obligations.ChecksigComparesSignature : Prop :=
  ∀ (s : State) (pre : List Draw) (w r : Draw),
    decode ⟨0x35, []⟩ = .instr .eeChecksig ∧
    (s.params.Stated → bigEndianBytes (s.params.eeSigPage * s.params.eePageSize) = [0x0F, 0xE0]) ∧ (
    pre.length = (if s.params.readWaitsForReady then 1 else 0) →
    (s.Awaits (pre ++ [w, r]) → 2 ≤ w.result → 32 ≤ r.result → ∃ (t : Timestamp) (res : Result),
      res = (if r.data.toList.take 11 = signature s.params then { ok := true, err := .none, value := .bool true }
        else { ok := false, err := .sigMismatch, value := .bool false }) ∧
      exec .eeChecksig s = .next
        { s with
          res := res
          history := .result res ::
            .read s.params.eeBus (eeAddr s.params) 32 false 32 r.data.toList ::
            .write s.params.eeBus (eeAddr s.params)
              (bigEndianBytes (s.params.eeSigPage * s.params.eePageSize)) true 2 ::
            ((if s.params.readWaitsForReady then [.sleep s.ee.readyTime] else []) ++ s.history)
          env := envAfter s (pre.length + 2) t }) ∧
    (s.Awaits (pre ++ [w, r]) → w.result < 2 ∨ r.result < 32 → ∃ (t : State) (res : Result),
      res = { ok := false, err := .bus, value := .bool false } ∧
      exec .eeChecksig s = .next t ∧
      t = { s with res := res, history := t.history, env := t.env }))

/-- The law of 43_eeprom.md R228 under the reference EEPROM of R82 (reached at its own address, not the reference
ADC's): after an EE.INIT that succeeded, an EE.CHECKSIG whose read succeeds finds the signature; after an EE.FORMAT that
succeeded, it finds it exactly where the bytes drawn for the pages begin with the signature. -/
def Obligations.SignatureIsIdempotent : Prop :=
  ∀ s t u : State, s.Inv → s.env.devices.isSome = true →
    ¬(s.params.eeBus = s.params.adcBus ∧ eeAddr s.params = s.params.adcAddr) →
    (exec .eeInit s = .next t → t.res.ok = true → exec .eeChecksig t = .next u → u.res.err ≠ .bus →
      u.res = { ok := true, err := .none, value := .bool true }) ∧
    (exec .eeFormat s = .next t → t.res.ok = true → exec .eeChecksig t = .next u → u.res.err ≠ .bus →
      u.res = (if (s.drawAt 0).data.toList.take 11 = signature s.params
        then { ok := true, err := .none, value := .bool true }
        else { ok := false, err := .sigMismatch, value := .bool false }))

/-! ### The whole machine -/

/-- The invariant: the stated parameters (R8), legal shadow gain (R28), no valid cache while converting (R180), `ok`
exactly with kind NONE (R35), memories in canonical form. Every step from every state that has it keeps it. -/
def Obligations.StepKeepsInvariant : Prop := ∀ s t : State, s.Inv → step s = .next t → t.Inv

/-- R262: the clock never goes back, in any step of any environment. -/
def Obligations.ClockNeverGoesBack : Prop :=
  ∀ s t : State, step s = .next t → s.env.clock.toNat ≤ t.env.clock.toNat

/-- R35, R251, in every environment: an operation that ends has written `S.res` as its last action, once, with `ok`
exactly for kind NONE, and what it did before stands before that in the history. -/
def Obligations.OperationsEndWithOneResult : Prop :=
  ∀ (i : Instr) (s t : State), exec i s = .next t →
    (t.res.ok = true ↔ t.res.err = .none) ∧
    ∃ evs, t.history = .result t.res :: evs ++ s.history ∧ ∀ e ∈ evs, ∀ r, e ≠ .result r

/-- Which operation writes what, the column "written by" of 10_state.md and its R31, R33, R34 (the parameters, the marks
and the port, which no operation writes, beside it), in every environment. Where the column names ADC.READC it is for
the START and COMPLETE steps it performs: of `S.adc.cacheChannel`, which the column gives to COMPLETE alone, the clause
for READC says that its embedded completion kept a conversion of READC's own channel. -/
def Obligations.UnitsWriteOnlyTheirState : Prop :=
  ∀ (i : Instr) (s t : State), exec i s = .next t →
    KeepsRun s t ∧
    (t.adc.phase = s.adc.phase ∨ IsAdcStart i ∨ IsAdcComplete i ∨ IsAdcReadc i) ∧
    (t.adc.deadline = s.adc.deadline ∨ IsAdcStart i ∨ IsAdcComplete i ∨ IsAdcReadc i) ∧
    (t.adc.lastRead = s.adc.lastRead ∨ IsAdcComplete i ∨ IsAdcReadc i) ∧
    (t.adc.cacheValid = s.adc.cacheValid ∨ IsAdcStart i ∨ IsAdcComplete i ∨ IsAdcConfig i ∨ IsAdcReadc i) ∧
    (t.adc.cacheChannel = s.adc.cacheChannel ∨ IsAdcComplete i ∨
      ∃ ch force, i = .adcReadc ch force ∧ t.res.ok = true ∧ t.adc.phase = .ready ∧
        t.adc.cacheChannel.toNat = min ch 7) ∧
    (t.adc.pga = s.adc.pga ∨ IsAdcConfig i) ∧
    (t.adc.dr = s.adc.dr ∨ IsAdcConfig i) ∧
    (t.adc.cmode = s.adc.cmode ∨ IsAdcConfig i) ∧
    (t.adc.cpol = s.adc.cpol ∨ IsAdcConfig i) ∧
    (t.adc.clat = s.adc.clat ∨ IsAdcConfig i) ∧
    (t.adc.cque = s.adc.cque ∨ IsAdcConfig i) ∧
    (t.dac = s.dac ∨ ∃ ch pd gain vref, i = .dacSetcfg ch pd gain vref) ∧
    (t.ee = s.ee ∨ (∃ id, i = .eeWrite id) ∨ (∃ tries, i = .eeReady tries) ∨ i = .eeFormat ∨ i = .eeInit) ∧
    (KeepsPbuf s t ∨ ∃ id, i = .eeRead id)

/-- R252, its columns "reported by" and "value on failure", in every environment. -/
def Obligations.ReportedErrorKinds : Prop :=
  (∀ (i : Instr) (s t : State), exec i s = .next t →
    t.res.err ∈ reportable i ∧
    (t.res.ok = false → t.res.err ≠ .partialFail → i ≠ .eeChecksig → t.res.value = .nat 0) ∧
    (t.res.ok = false → i = .eeChecksig → t.res.value = .bool false) ∧
    (t.res.err = .partialFail → ∃ m : BitVec 128, m ≠ 0 ∧ t.res.value = .mask m)) ∧
  [ErrKind.none, .bus, .mismatch, .notReady, .busy, .pending, .notConverting, .badOperand, .partialFail, .sigMismatch,
    .badOpcode].map ErrKind.code = [0, 1, 2, 3, 4, 5, 6, 7, 8, 9, 10]

/-- R69 along every run: in the history, a transaction that holds the bus is a pointer or address write, and where it
was taken the next event is the read of the same peripheral. Every step keeps it. -/
def Obligations.HoldIsOnlyBeforeRead : Prop :=
  HoldIsFollowed State.reset.history ∧
  ∀ s t : State, HoldIsFollowed s.history → step s = .next t → HoldIsFollowed t.history

/-- R60, R61, R74 in every environment: every transaction a step issues goes to one of the block's three devices, has
one of the widths of R74, reads never hold the bus, and its result is within R61's limits. -/
def Obligations.TransactionsAreLawful : Prop :=
  ∀ s t : State, step s = .next t → ∃ evs, t.history = evs ++ s.history ∧ ∀ e ∈ evs, e.Lawful s.params

/-- Bounds on the transactions and the sleeps of every operation, by the steps of its rule, in every environment
(`mostTransfers`, `mostSleeps`: none for the operations that use no bus). They are the bounds that
70_reset_and_hazards.md R291 infers, but for ADC.COMPLETE: there the steps of 41_adc.md allow two more, for the
conversion read of the last attempt (log entry 17), and R291's own bound is stated for a completion that ends PENDING or
in MISMATCH. -/
def Obligations.TransactionsAreBounded : Prop :=
  ∀ (i : Instr) (s t : State) (evs : List Event), exec i s = .next t → t.history = evs ++ s.history →
    (transfers evs).length ≤ mostTransfers s.params i ∧
    (sleeps evs).length ≤ mostSleeps s.params i ∧
    (IsAdcComplete i → t.res.err = .pending ∨ t.res.err = .mismatch →
      (transfers evs).length ≤ 2 * s.params.adcCompleteTries)
end

