-- ==== Sys2Proof/Laws/Memory.lean ====
section
/-! SUPPORT. The laws of the two byte memories: reading after a write, and that every operation keeps the canonical
form. -/

namespace Sys2Proof.Machine

theorem Memory.risingFrom_weaken (lo lo' size : Nat) (m : Memory) (h : lo' ≤ lo)
    (hm : m.risingFrom lo size = true) : m.risingFrom lo' size = true := by
  cases m with
  | nil => rfl
  | cons c rest => simp only [Memory.risingFrom, Bool.and_eq_true, decide_eq_true_eq] at hm ⊢; exact ⟨⟨by omega, hm.1.2⟩, hm.2⟩

theorem Memory.lookup_below (lo size : Nat) (m : Memory) (hm : m.risingFrom lo size = true) (a : Nat) (h : a < lo) :
    m.lookup a = none := by
  induction m generalizing lo with
  | nil => rfl
  | cons c rest ih =>
    simp only [Memory.risingFrom, Bool.and_eq_true, decide_eq_true_eq] at hm
    simp only [Memory.lookup]
    rw [if_neg (by omega)]
    exact ih (c.1 + 1) hm.2 (by omega)

/-! ### Reading after one byte was set or removed -/

theorem Memory.lookup_insert_same (m : Memory) (a : Nat) (v : Byte) : (m.insert a v).lookup a = some v := by
  induction m with
  | nil => simp [Memory.insert, Memory.lookup]
  | cons c rest ih =>
    simp only [Memory.insert]
    split
    · simp [Memory.lookup]
    · split
      · simp [Memory.lookup]
      · rename_i h1 h2
        simp only [Memory.lookup, ih, ite_eq_right_iff]
        intro h; omega

theorem Memory.lookup_insert_other (m : Memory) (a b : Nat) (v : Byte) (h : b ≠ a) :
    (m.insert a v).lookup b = m.lookup b := by
  induction m with
  | nil => simp [Memory.insert, Memory.lookup, Ne.symm h]
  | cons c rest ih =>
    simp only [Memory.insert]
    split
    · simp [Memory.lookup, Ne.symm h]
    · split
      · rename_i h1 h2
        subst h2
        simp [Memory.lookup, Ne.symm h]
      · simp only [Memory.lookup, ih]

theorem Memory.lookup_insert (m : Memory) (a b : Nat) (v : Byte) :
    (m.insert a v).lookup b = if b = a then some v else m.lookup b := by
  split
  · rename_i h; rw [h, Memory.lookup_insert_same]
  · rename_i h; exact Memory.lookup_insert_other m a b v h

theorem Memory.lookup_erase_other (m : Memory) (a b : Nat) (h : b ≠ a) : (m.erase a).lookup b = m.lookup b := by
  induction m with
  | nil => rfl
  | cons c rest ih =>
    simp only [Memory.erase]
    split
    · rename_i h1
      simp only [Memory.lookup]
      rw [if_neg (by omega)]
    · simp only [Memory.lookup, ih]

theorem Memory.lookup_erase_same (lo size : Nat) (m : Memory) (hm : m.risingFrom lo size = true) (a : Nat) :
    (m.erase a).lookup a = none := by
  induction m generalizing lo with
  | nil => rfl
  | cons c rest ih =>
    simp only [Memory.risingFrom, Bool.and_eq_true, decide_eq_true_eq] at hm
    simp only [Memory.erase]
    split
    · exact Memory.lookup_below (c.1 + 1) size rest hm.2 a (by omega)
    · rename_i h
      simp only [Memory.lookup]
      rw [if_neg h]
      exact ih (c.1 + 1) hm.2

/-! ### Rising addresses -/

theorem Memory.risingFrom_insert (lo size : Nat) (m : Memory) (a : Nat) (v : Byte) (hlo : lo ≤ a) (ha : a < size)
    (hm : m.risingFrom lo size = true) : (m.insert a v).risingFrom lo size = true := by
  induction m generalizing lo with
  | nil => simp [Memory.insert, Memory.risingFrom, hlo, ha]
  | cons c rest ih =>
    simp only [Memory.risingFrom, Bool.and_eq_true, decide_eq_true_eq] at hm
    simp only [Memory.insert]
    split
    · simp only [Memory.risingFrom, Bool.and_eq_true, decide_eq_true_eq]
      exact ⟨⟨hlo, ha⟩, ⟨by omega, hm.1.2⟩, hm.2⟩
    · split
      · rename_i h1 h2
        simp only [Memory.risingFrom, Bool.and_eq_true, decide_eq_true_eq]
        exact ⟨⟨hlo, ha⟩, by rw [h2]; exact hm.2⟩
      · simp only [Memory.risingFrom, Bool.and_eq_true, decide_eq_true_eq]
        exact ⟨hm.1, ih (c.1 + 1) (by omega) hm.2⟩

theorem Memory.risingFrom_erase (lo size : Nat) (m : Memory) (a : Nat) (hm : m.risingFrom lo size = true) :
    (m.erase a).risingFrom lo size = true := by
  induction m generalizing lo with
  | nil => rfl
  | cons c rest ih =>
    simp only [Memory.risingFrom, Bool.and_eq_true, decide_eq_true_eq] at hm
    simp only [Memory.erase]
    split
    · exact Memory.risingFrom_weaken (c.1 + 1) lo size rest (by omega) hm.2
    · simp only [Memory.risingFrom, Bool.and_eq_true, decide_eq_true_eq]
      exact ⟨hm.1, ih (c.1 + 1) hm.2⟩

/-! ### PBUF -/

theorem Memory.wf_writeBytes (m : Memory) (a : Nat) (v : List Byte) (h : a + v.length ≤ pbufSize)
    (hm : m.wf = true) : (m.writeBytes a v).wf = true := by
  induction v generalizing m a with
  | nil => exact hm
  | cons b bs ih =>
    simp only [List.length_cons] at h
    exact ih _ _ (by omega) (Memory.risingFrom_insert 0 pbufSize m a b (by omega) (by omega) hm)

/-- Reading any byte after `MemWrite`: the written bytes at their addresses, every other as before. -/
theorem Memory.lookup_writeBytes (m : Memory) (a : Nat) (v : List Byte) (b : Nat) :
    (m.writeBytes a v).lookup b = if a ≤ b ∧ b < a + v.length then v[b - a]? else m.lookup b := by
  induction v generalizing m a with
  | nil =>
    simp only [Memory.writeBytes, List.length_nil]
    rw [if_neg (by omega)]
  | cons x xs ih =>
    simp only [Memory.writeBytes, ih, Memory.lookup_insert, List.length_cons]
    by_cases h1 : b = a
    · subst h1; simp
    · by_cases h2 : a ≤ b ∧ b < a + (xs.length + 1)
      · rw [if_pos (by omega), if_pos h2]
        obtain ⟨k, rfl⟩ : ∃ k, b = a + 1 + k := ⟨b - a - 1, by omega⟩
        have e1 : a + 1 + k - (a + 1) = k := by omega
        have e2 : a + 1 + k - a = k + 1 := by omega
        rw [e1, e2, List.getElem?_cons_succ]
      · rw [if_neg (by omega), if_neg h2, if_neg h1]

theorem Memory.readBytes_length (m : Memory) (a n : Nat) (p : List Byte) (h : m.readBytes a n = some p) :
    p.length = n := by
  induction n generalizing a p with
  | zero => simp [Memory.readBytes] at h; simp [← h]
  | succ k ih =>
    simp only [Memory.readBytes] at h
    split at h
    · rename_i b bs hb hbs
      simp only [Option.some.injEq] at h
      subst h
      simp [ih _ _ hbs]
    · cases h

/-- A read of a stretch of PBUF gives bytes exactly when every one of them is written. -/
theorem Memory.readBytes_isSome (m : Memory) (a n : Nat) :
    (m.readBytes a n).isSome = true ↔ ∀ i, i < n → (m.lookup (a + i)).isSome = true := by
  induction n generalizing a with
  | zero => simp [Memory.readBytes]
  | succ k ih =>
    simp only [Memory.readBytes]
    constructor
    · intro h i hi
      split at h
      · rename_i b bs hb hbs
        cases i with
        | zero => simp [hb]
        | succ j =>
          have := (ih (a + 1)).1 (by simp [hbs]) j (by omega)
          rwa [show a + (j + 1) = a + 1 + j by omega]
      · cases h
    · intro h
      have h0 := h 0 (by omega)
      have h1 := (ih (a + 1)).2 (fun i hi => by
        have := h (i + 1) (by omega)
        rwa [show a + (i + 1) = a + 1 + i by omega] at this)
      obtain ⟨b, hb⟩ := Option.isSome_iff_exists.1 h0
      obtain ⟨bs, hbs⟩ := Option.isSome_iff_exists.1 h1
      rw [Nat.add_zero] at hb
      simp [hb, hbs]

/-! ### The array of the reference EEPROM -/

theorem Memory.all_insert (m : Memory) (a : Nat) (v : Byte) (hv : v ≠ Memory.erased)
    (hm : (m.all fun c => decide (c.2 ≠ Memory.erased)) = true) :
    ((m.insert a v).all fun c => decide (c.2 ≠ Memory.erased)) = true := by
  induction m with
  | nil => simp [Memory.insert, hv]
  | cons c rest ih =>
    simp only [List.all_cons, Bool.and_eq_true] at hm
    simp only [Memory.insert]
    split
    · simp only [List.all_cons, Bool.and_eq_true]; exact ⟨by simpa using hv, hm.1, hm.2⟩
    · split
      · simp only [List.all_cons, Bool.and_eq_true]; exact ⟨by simpa using hv, hm.2⟩
      · simp only [List.all_cons, Bool.and_eq_true]; exact ⟨hm.1, ih hm.2⟩

theorem Memory.all_erase (m : Memory) (a : Nat) (hm : (m.all fun c => decide (c.2 ≠ Memory.erased)) = true) :
    ((m.erase a).all fun c => decide (c.2 ≠ Memory.erased)) = true := by
  induction m with
  | nil => rfl
  | cons c rest ih =>
    simp only [List.all_cons, Bool.and_eq_true] at hm
    simp only [Memory.erase]
    split
    · exact hm.2
    · simp only [List.all_cons, Bool.and_eq_true]; exact ⟨hm.1, ih hm.2⟩

theorem Memory.eeWf_eeSet (m : Memory) (a : Nat) (v : Byte) (ha : a < refEepromSize) (hm : m.eeWf = true) :
    (m.eeSet a v).eeWf = true := by
  simp only [Memory.eeWf, Bool.and_eq_true] at hm ⊢
  simp only [Memory.eeSet]
  split
  · exact ⟨Memory.risingFrom_erase 0 refEepromSize m a hm.1, Memory.all_erase m a hm.2⟩
  · rename_i h
    exact ⟨Memory.risingFrom_insert 0 refEepromSize m a v (by omega) ha hm.1, Memory.all_insert m a v h hm.2⟩

/-- Reading any byte of the reference EEPROM after one was set. -/
theorem Memory.eeByte_eeSet (m : Memory) (a b : Nat) (v : Byte) (hm : m.eeWf = true) :
    (m.eeSet a v).eeByte b = if b = a then v else m.eeByte b := by
  simp only [Memory.eeWf, Bool.and_eq_true] at hm
  simp only [Memory.eeSet, Memory.eeByte]
  split
  · rename_i hv
    split
    · rename_i h; subst h; rw [Memory.lookup_erase_same 0 refEepromSize m hm.1]; simp [hv]
    · rename_i h; rw [Memory.lookup_erase_other m a b h]
  · rw [Memory.lookup_insert]
    split <;> simp

theorem RefEeprom.cellAddr_lt (base : Half) (i : Nat) : RefEeprom.cellAddr base i < refEepromSize := by
  have h : ∀ x y : Half, ((x &&& 0x0FE0) ||| (y &&& 0x001F)) < 4096#16 := by
    intro x y
    have : ((x &&& 0x0FE0) ||| (y &&& 0x001F)) ≤ 0x0FFF#16 := by
      have e : ((x &&& 0x0FE0) ||| (y &&& 0x001F)) = ((x &&& 0x0FE0) ||| (y &&& 0x001F)) &&& 0x0FFF#16 := by
        rw [BitVec.and_or_distrib_right, BitVec.and_assoc, BitVec.and_assoc]; rfl
      rw [e, BitVec.le_def, BitVec.toNat_and]
      exact Nat.and_le_right
    rw [BitVec.le_def] at this
    rw [BitVec.lt_def]
    simp only [BitVec.toNat_ofNat] at this ⊢
    omega
  have := h base (base + BitVec.ofNat 16 i)
  rw [BitVec.lt_def] at this
  simpa [RefEeprom.cellAddr, refEepromSize] using this

theorem RefEeprom.eeWf_store (m : Memory) (base : Half) (i : Nat) (data : List Byte) (hm : m.eeWf = true) :
    (RefEeprom.store m base i data).eeWf = true := by
  induction data generalizing m i with
  | nil => exact hm
  | cons b bs ih => exact ih _ _ (Memory.eeWf_eeSet m _ b (RefEeprom.cellAddr_lt base i) hm)

theorem RefEeprom.load_length (m : Memory) (a n : Nat) : (RefEeprom.load m a n).length = n := by
  induction n generalizing a with
  | zero => rfl
  | succ k ih => simp [RefEeprom.load, ih]

end Sys2Proof.Machine
end

