-- ==== Sys2Proof/Laws/State.lean ====
section
/-! SUPPORT. What each update of the state does to each field, by definition: an unchanged field or its new value. No
later proof unfolds a record update. -/

namespace Sys2Proof.Machine

variable (s : State)

/-! ### `log` -/

@[simp] theorem State.log_params (e : Event) : (s.log e).params = s.params := rfl
@[simp] theorem State.log_adc (e : Event) : (s.log e).adc = s.adc := rfl
@[simp] theorem State.log_dac (e : Event) : (s.log e).dac = s.dac := rfl
@[simp] theorem State.log_ee (e : Event) : (s.log e).ee = s.ee := rfl
@[simp] theorem State.log_pbuf (e : Event) : (s.log e).pbuf = s.pbuf := rfl
@[simp] theorem State.log_res (e : Event) : (s.log e).res = s.res := rfl
@[simp] theorem State.log_faultMark (e : Event) : (s.log e).faultMark = s.faultMark := rfl
@[simp] theorem State.log_refusalMark (e : Event) : (s.log e).refusalMark = s.refusalMark := rfl
@[simp] theorem State.log_port (e : Event) : (s.log e).port = s.port := rfl
@[simp] theorem State.log_history (e : Event) : (s.log e).history = e :: s.history := rfl
@[simp] theorem State.log_env (e : Event) : (s.log e).env = s.env := rfl

/-! ### `finish` -/

@[simp] theorem State.finish_params (r : Result) : (s.finish r).params = s.params := rfl
@[simp] theorem State.finish_adc (r : Result) : (s.finish r).adc = s.adc := rfl
@[simp] theorem State.finish_dac (r : Result) : (s.finish r).dac = s.dac := rfl
@[simp] theorem State.finish_ee (r : Result) : (s.finish r).ee = s.ee := rfl
@[simp] theorem State.finish_pbuf (r : Result) : (s.finish r).pbuf = s.pbuf := rfl
@[simp] theorem State.finish_res (r : Result) : (s.finish r).res = r := rfl
@[simp] theorem State.finish_faultMark (r : Result) : (s.finish r).faultMark = s.faultMark := rfl
@[simp] theorem State.finish_refusalMark (r : Result) : (s.finish r).refusalMark = s.refusalMark := rfl
@[simp] theorem State.finish_port (r : Result) : (s.finish r).port = s.port := rfl
@[simp] theorem State.finish_history (r : Result) : (s.finish r).history = .result r :: s.history := rfl
@[simp] theorem State.finish_env (r : Result) : (s.finish r).env = s.env := rfl

/-! ### `ret` -/

@[simp] theorem State.ret_params (v : Value) : (s.ret v).params = s.params := rfl
@[simp] theorem State.ret_adc (v : Value) : (s.ret v).adc = s.adc := rfl
@[simp] theorem State.ret_dac (v : Value) : (s.ret v).dac = s.dac := rfl
@[simp] theorem State.ret_ee (v : Value) : (s.ret v).ee = s.ee := rfl
@[simp] theorem State.ret_pbuf (v : Value) : (s.ret v).pbuf = s.pbuf := rfl
@[simp] theorem State.ret_res (v : Value) : (s.ret v).res = Result.success v := rfl
@[simp] theorem State.ret_faultMark (v : Value) : (s.ret v).faultMark = s.faultMark := rfl
@[simp] theorem State.ret_refusalMark (v : Value) : (s.ret v).refusalMark = s.refusalMark := rfl
@[simp] theorem State.ret_port (v : Value) : (s.ret v).port = s.port := rfl
@[simp] theorem State.ret_history (v : Value) : (s.ret v).history = .result (Result.success v) :: s.history := rfl
@[simp] theorem State.ret_env (v : Value) : (s.ret v).env = s.env := rfl

/-! ### `raise` -/

@[simp] theorem State.raise_params (e : ErrKind) (v : Value) : (s.raise e v).params = s.params := rfl
@[simp] theorem State.raise_adc (e : ErrKind) (v : Value) : (s.raise e v).adc = s.adc := rfl
@[simp] theorem State.raise_dac (e : ErrKind) (v : Value) : (s.raise e v).dac = s.dac := rfl
@[simp] theorem State.raise_ee (e : ErrKind) (v : Value) : (s.raise e v).ee = s.ee := rfl
@[simp] theorem State.raise_pbuf (e : ErrKind) (v : Value) : (s.raise e v).pbuf = s.pbuf := rfl
@[simp] theorem State.raise_res (e : ErrKind) (v : Value) : (s.raise e v).res = Result.failure e v := rfl
@[simp] theorem State.raise_faultMark (e : ErrKind) (v : Value) : (s.raise e v).faultMark = s.faultMark := rfl
@[simp] theorem State.raise_refusalMark (e : ErrKind) (v : Value) : (s.raise e v).refusalMark = s.refusalMark := rfl
@[simp] theorem State.raise_port (e : ErrKind) (v : Value) : (s.raise e v).port = s.port := rfl
@[simp] theorem State.raise_history (e : ErrKind) (v : Value) :
    (s.raise e v).history = .result (Result.failure e v) :: s.history := rfl
@[simp] theorem State.raise_env (e : ErrKind) (v : Value) : (s.raise e v).env = s.env := rfl

/-! ### `refuseCode` -/

@[simp] theorem State.refuseCode_params : (s.refuseCode).params = s.params := rfl
@[simp] theorem State.refuseCode_adc : (s.refuseCode).adc = s.adc := rfl
@[simp] theorem State.refuseCode_dac : (s.refuseCode).dac = s.dac := rfl
@[simp] theorem State.refuseCode_ee : (s.refuseCode).ee = s.ee := rfl
@[simp] theorem State.refuseCode_pbuf : (s.refuseCode).pbuf = s.pbuf := rfl
@[simp] theorem State.refuseCode_res : (s.refuseCode).res = Result.failure .badOpcode (.nat 0) := rfl
@[simp] theorem State.refuseCode_faultMark : (s.refuseCode).faultMark = s.faultMark := rfl
@[simp] theorem State.refuseCode_refusalMark : (s.refuseCode).refusalMark = true := rfl
@[simp] theorem State.refuseCode_port : (s.refuseCode).port = s.port := rfl
@[simp] theorem State.refuseCode_history :
    (s.refuseCode).history = .result (Result.failure .badOpcode (.nat 0)) :: s.history := rfl
@[simp] theorem State.refuseCode_env : (s.refuseCode).env = s.env := rfl

/-! ### `faulted` -/

@[simp] theorem State.faulted_params : (s.faulted).params = s.params := rfl
@[simp] theorem State.faulted_adc : (s.faulted).adc = s.adc := rfl
@[simp] theorem State.faulted_dac : (s.faulted).dac = s.dac := rfl
@[simp] theorem State.faulted_ee : (s.faulted).ee = s.ee := rfl
@[simp] theorem State.faulted_pbuf : (s.faulted).pbuf = s.pbuf := rfl
@[simp] theorem State.faulted_res : (s.faulted).res = s.res := rfl
@[simp] theorem State.faulted_faultMark : (s.faulted).faultMark = true := rfl
@[simp] theorem State.faulted_refusalMark : (s.faulted).refusalMark = s.refusalMark := rfl
@[simp] theorem State.faulted_port : (s.faulted).port = s.port := rfl
@[simp] theorem State.faulted_history : (s.faulted).history = s.history := rfl
@[simp] theorem State.faulted_env : (s.faulted).env = s.env := rfl

/-! ### `afterDraw` -/

@[simp] theorem State.afterDraw_params : (s.afterDraw).params = s.params := rfl
@[simp] theorem State.afterDraw_adc : (s.afterDraw).adc = s.adc := rfl
@[simp] theorem State.afterDraw_dac : (s.afterDraw).dac = s.dac := rfl
@[simp] theorem State.afterDraw_ee : (s.afterDraw).ee = s.ee := rfl
@[simp] theorem State.afterDraw_pbuf : (s.afterDraw).pbuf = s.pbuf := rfl
@[simp] theorem State.afterDraw_res : (s.afterDraw).res = s.res := rfl
@[simp] theorem State.afterDraw_faultMark : (s.afterDraw).faultMark = s.faultMark := rfl
@[simp] theorem State.afterDraw_refusalMark : (s.afterDraw).refusalMark = s.refusalMark := rfl
@[simp] theorem State.afterDraw_port : (s.afterDraw).port = s.port := rfl
@[simp] theorem State.afterDraw_history : (s.afterDraw).history = s.history := rfl
@[simp] theorem State.afterDraw_env :
    (s.afterDraw).env = { s.env with script := s.env.script.tail, drawCount := s.env.drawCount + 1 } := rfl

/-! ### `setClock` -/

@[simp] theorem State.setClock_params (t : Timestamp) : (s.setClock t).params = s.params := rfl
@[simp] theorem State.setClock_adc (t : Timestamp) : (s.setClock t).adc = s.adc := rfl
@[simp] theorem State.setClock_dac (t : Timestamp) : (s.setClock t).dac = s.dac := rfl
@[simp] theorem State.setClock_ee (t : Timestamp) : (s.setClock t).ee = s.ee := rfl
@[simp] theorem State.setClock_pbuf (t : Timestamp) : (s.setClock t).pbuf = s.pbuf := rfl
@[simp] theorem State.setClock_res (t : Timestamp) : (s.setClock t).res = s.res := rfl
@[simp] theorem State.setClock_faultMark (t : Timestamp) : (s.setClock t).faultMark = s.faultMark := rfl
@[simp] theorem State.setClock_refusalMark (t : Timestamp) : (s.setClock t).refusalMark = s.refusalMark := rfl
@[simp] theorem State.setClock_port (t : Timestamp) : (s.setClock t).port = s.port := rfl
@[simp] theorem State.setClock_history (t : Timestamp) : (s.setClock t).history = s.history := rfl
@[simp] theorem State.setClock_env (t : Timestamp) : (s.setClock t).env = { s.env with clock := t } := rfl

/-! ### `setDevices` -/

@[simp] theorem State.setDevices_params (v : Option Devices) : (s.setDevices v).params = s.params := rfl
@[simp] theorem State.setDevices_adc (v : Option Devices) : (s.setDevices v).adc = s.adc := rfl
@[simp] theorem State.setDevices_dac (v : Option Devices) : (s.setDevices v).dac = s.dac := rfl
@[simp] theorem State.setDevices_ee (v : Option Devices) : (s.setDevices v).ee = s.ee := rfl
@[simp] theorem State.setDevices_pbuf (v : Option Devices) : (s.setDevices v).pbuf = s.pbuf := rfl
@[simp] theorem State.setDevices_res (v : Option Devices) : (s.setDevices v).res = s.res := rfl
@[simp] theorem State.setDevices_faultMark (v : Option Devices) : (s.setDevices v).faultMark = s.faultMark := rfl
@[simp] theorem State.setDevices_refusalMark (v : Option Devices) :
    (s.setDevices v).refusalMark = s.refusalMark := rfl
@[simp] theorem State.setDevices_port (v : Option Devices) : (s.setDevices v).port = s.port := rfl
@[simp] theorem State.setDevices_history (v : Option Devices) : (s.setDevices v).history = s.history := rfl
@[simp] theorem State.setDevices_env (v : Option Devices) : (s.setDevices v).env = { s.env with devices := v } := rfl

/-! ### `readClock` -/

@[simp] theorem State.readClock_params : (s.readClock).params = s.params := rfl
@[simp] theorem State.readClock_adc : (s.readClock).adc = s.adc := rfl
@[simp] theorem State.readClock_dac : (s.readClock).dac = s.dac := rfl
@[simp] theorem State.readClock_ee : (s.readClock).ee = s.ee := rfl
@[simp] theorem State.readClock_pbuf : (s.readClock).pbuf = s.pbuf := rfl
@[simp] theorem State.readClock_res : (s.readClock).res = s.res := rfl
@[simp] theorem State.readClock_faultMark : (s.readClock).faultMark = s.faultMark := rfl
@[simp] theorem State.readClock_refusalMark : (s.readClock).refusalMark = s.refusalMark := rfl
@[simp] theorem State.readClock_port : (s.readClock).port = s.port := rfl
@[simp] theorem State.readClock_history : (s.readClock).history = s.history := rfl
@[simp] theorem State.readClock_env :
    (s.readClock).env = (s.afterDraw.setClock (clockForward s.env.clock s.nextDraw.advance)).env := rfl

/-! ### `sleepUntil` -/

@[simp] theorem State.sleepUntil_params (t : Timestamp) : (s.sleepUntil t).params = s.params := rfl
@[simp] theorem State.sleepUntil_adc (t : Timestamp) : (s.sleepUntil t).adc = s.adc := rfl
@[simp] theorem State.sleepUntil_dac (t : Timestamp) : (s.sleepUntil t).dac = s.dac := rfl
@[simp] theorem State.sleepUntil_ee (t : Timestamp) : (s.sleepUntil t).ee = s.ee := rfl
@[simp] theorem State.sleepUntil_pbuf (t : Timestamp) : (s.sleepUntil t).pbuf = s.pbuf := rfl
@[simp] theorem State.sleepUntil_res (t : Timestamp) : (s.sleepUntil t).res = s.res := rfl
@[simp] theorem State.sleepUntil_faultMark (t : Timestamp) : (s.sleepUntil t).faultMark = s.faultMark := rfl
@[simp] theorem State.sleepUntil_refusalMark (t : Timestamp) : (s.sleepUntil t).refusalMark = s.refusalMark := rfl
@[simp] theorem State.sleepUntil_port (t : Timestamp) : (s.sleepUntil t).port = s.port := rfl
@[simp] theorem State.sleepUntil_history (t : Timestamp) : (s.sleepUntil t).history = .sleep t :: s.history := rfl
@[simp] theorem State.sleepUntil_env (t : Timestamp) :
    (s.sleepUntil t).env = (s.afterDraw.setClock (clockForward (laterOf s.env.clock t) s.nextDraw.advance)).env := rfl

/-! ### `setPhase` -/

@[simp] theorem State.setPhase_params (p : Phase) : (s.setPhase p).params = s.params := rfl
@[simp] theorem State.setPhase_adc (p : Phase) : (s.setPhase p).adc = { s.adc with phase := p } := rfl
@[simp] theorem State.setPhase_dac (p : Phase) : (s.setPhase p).dac = s.dac := rfl
@[simp] theorem State.setPhase_ee (p : Phase) : (s.setPhase p).ee = s.ee := rfl
@[simp] theorem State.setPhase_pbuf (p : Phase) : (s.setPhase p).pbuf = s.pbuf := rfl
@[simp] theorem State.setPhase_res (p : Phase) : (s.setPhase p).res = s.res := rfl
@[simp] theorem State.setPhase_faultMark (p : Phase) : (s.setPhase p).faultMark = s.faultMark := rfl
@[simp] theorem State.setPhase_refusalMark (p : Phase) : (s.setPhase p).refusalMark = s.refusalMark := rfl
@[simp] theorem State.setPhase_port (p : Phase) : (s.setPhase p).port = s.port := rfl
@[simp] theorem State.setPhase_history (p : Phase) : (s.setPhase p).history = s.history := rfl
@[simp] theorem State.setPhase_env (p : Phase) : (s.setPhase p).env = s.env := rfl

/-! ### `setDeadline` -/

@[simp] theorem State.setDeadline_params (t : Timestamp) : (s.setDeadline t).params = s.params := rfl
@[simp] theorem State.setDeadline_adc (t : Timestamp) : (s.setDeadline t).adc = { s.adc with deadline := t } := rfl
@[simp] theorem State.setDeadline_dac (t : Timestamp) : (s.setDeadline t).dac = s.dac := rfl
@[simp] theorem State.setDeadline_ee (t : Timestamp) : (s.setDeadline t).ee = s.ee := rfl
@[simp] theorem State.setDeadline_pbuf (t : Timestamp) : (s.setDeadline t).pbuf = s.pbuf := rfl
@[simp] theorem State.setDeadline_res (t : Timestamp) : (s.setDeadline t).res = s.res := rfl
@[simp] theorem State.setDeadline_faultMark (t : Timestamp) : (s.setDeadline t).faultMark = s.faultMark := rfl
@[simp] theorem State.setDeadline_refusalMark (t : Timestamp) : (s.setDeadline t).refusalMark = s.refusalMark := rfl
@[simp] theorem State.setDeadline_port (t : Timestamp) : (s.setDeadline t).port = s.port := rfl
@[simp] theorem State.setDeadline_history (t : Timestamp) : (s.setDeadline t).history = s.history := rfl
@[simp] theorem State.setDeadline_env (t : Timestamp) : (s.setDeadline t).env = s.env := rfl

/-! ### `dropCache` -/

@[simp] theorem State.dropCache_params : (s.dropCache).params = s.params := rfl
@[simp] theorem State.dropCache_adc : (s.dropCache).adc = { s.adc with cacheValid := false } := rfl
@[simp] theorem State.dropCache_dac : (s.dropCache).dac = s.dac := rfl
@[simp] theorem State.dropCache_ee : (s.dropCache).ee = s.ee := rfl
@[simp] theorem State.dropCache_pbuf : (s.dropCache).pbuf = s.pbuf := rfl
@[simp] theorem State.dropCache_res : (s.dropCache).res = s.res := rfl
@[simp] theorem State.dropCache_faultMark : (s.dropCache).faultMark = s.faultMark := rfl
@[simp] theorem State.dropCache_refusalMark : (s.dropCache).refusalMark = s.refusalMark := rfl
@[simp] theorem State.dropCache_port : (s.dropCache).port = s.port := rfl
@[simp] theorem State.dropCache_history : (s.dropCache).history = s.history := rfl
@[simp] theorem State.dropCache_env : (s.dropCache).env = s.env := rfl

/-! ### `keepConversion` -/

@[simp] theorem State.keepConversion_params (c : BitVec 3) (v : Half) :
    (s.keepConversion c v).params = s.params := rfl
@[simp] theorem State.keepConversion_adc (c : BitVec 3) (v : Half) :
    (s.keepConversion c v).adc = { s.adc with phase := .ready, lastRead := v, cacheValid := true, cacheChannel := c } := rfl
@[simp] theorem State.keepConversion_dac (c : BitVec 3) (v : Half) : (s.keepConversion c v).dac = s.dac := rfl
@[simp] theorem State.keepConversion_ee (c : BitVec 3) (v : Half) : (s.keepConversion c v).ee = s.ee := rfl
@[simp] theorem State.keepConversion_pbuf (c : BitVec 3) (v : Half) : (s.keepConversion c v).pbuf = s.pbuf := rfl
@[simp] theorem State.keepConversion_res (c : BitVec 3) (v : Half) : (s.keepConversion c v).res = s.res := rfl
@[simp] theorem State.keepConversion_faultMark (c : BitVec 3) (v : Half) :
    (s.keepConversion c v).faultMark = s.faultMark := rfl
@[simp] theorem State.keepConversion_refusalMark (c : BitVec 3) (v : Half) :
    (s.keepConversion c v).refusalMark = s.refusalMark := rfl
@[simp] theorem State.keepConversion_port (c : BitVec 3) (v : Half) : (s.keepConversion c v).port = s.port := rfl
@[simp] theorem State.keepConversion_history (c : BitVec 3) (v : Half) :
    (s.keepConversion c v).history = s.history := rfl
@[simp] theorem State.keepConversion_env (c : BitVec 3) (v : Half) : (s.keepConversion c v).env = s.env := rfl

/-! ### `setShadow` -/

@[simp] theorem State.setShadow_params (pga dr : BitVec 3) (cmode cpol clat : BitVec 1) (cque : BitVec 2) :
    (s.setShadow pga dr cmode cpol clat cque).params = s.params := rfl
@[simp] theorem State.setShadow_adc (pga dr : BitVec 3) (cmode cpol clat : BitVec 1) (cque : BitVec 2) :
    (s.setShadow pga dr cmode cpol clat cque).adc = { s.adc with pga := pga, dr := dr, cmode := cmode, cpol := cpol, clat := clat, cque := cque } := rfl
@[simp] theorem State.setShadow_dac (pga dr : BitVec 3) (cmode cpol clat : BitVec 1) (cque : BitVec 2) :
    (s.setShadow pga dr cmode cpol clat cque).dac = s.dac := rfl
@[simp] theorem State.setShadow_ee (pga dr : BitVec 3) (cmode cpol clat : BitVec 1) (cque : BitVec 2) :
    (s.setShadow pga dr cmode cpol clat cque).ee = s.ee := rfl
@[simp] theorem State.setShadow_pbuf (pga dr : BitVec 3) (cmode cpol clat : BitVec 1) (cque : BitVec 2) :
    (s.setShadow pga dr cmode cpol clat cque).pbuf = s.pbuf := rfl
@[simp] theorem State.setShadow_res (pga dr : BitVec 3) (cmode cpol clat : BitVec 1) (cque : BitVec 2) :
    (s.setShadow pga dr cmode cpol clat cque).res = s.res := rfl
@[simp] theorem State.setShadow_faultMark (pga dr : BitVec 3) (cmode cpol clat : BitVec 1) (cque : BitVec 2) :
    (s.setShadow pga dr cmode cpol clat cque).faultMark = s.faultMark := rfl
@[simp] theorem State.setShadow_refusalMark (pga dr : BitVec 3) (cmode cpol clat : BitVec 1) (cque : BitVec 2) :
    (s.setShadow pga dr cmode cpol clat cque).refusalMark = s.refusalMark := rfl
@[simp] theorem State.setShadow_port (pga dr : BitVec 3) (cmode cpol clat : BitVec 1) (cque : BitVec 2) :
    (s.setShadow pga dr cmode cpol clat cque).port = s.port := rfl
@[simp] theorem State.setShadow_history (pga dr : BitVec 3) (cmode cpol clat : BitVec 1) (cque : BitVec 2) :
    (s.setShadow pga dr cmode cpol clat cque).history = s.history := rfl
@[simp] theorem State.setShadow_env (pga dr : BitVec 3) (cmode cpol clat : BitVec 1) (cque : BitVec 2) :
    (s.setShadow pga dr cmode cpol clat cque).env = s.env := rfl

/-! ### `setDacChannel` -/

@[simp] theorem State.setDacChannel_params (c : Fin 4) (k : DacChannel) :
    (s.setDacChannel c k).params = s.params := rfl
@[simp] theorem State.setDacChannel_adc (c : Fin 4) (k : DacChannel) : (s.setDacChannel c k).adc = s.adc := rfl
@[simp] theorem State.setDacChannel_dac (c : Fin 4) (k : DacChannel) :
    (s.setDacChannel c k).dac = { cfg := s.dac.cfg.set c.val k } := rfl
@[simp] theorem State.setDacChannel_ee (c : Fin 4) (k : DacChannel) : (s.setDacChannel c k).ee = s.ee := rfl
@[simp] theorem State.setDacChannel_pbuf (c : Fin 4) (k : DacChannel) : (s.setDacChannel c k).pbuf = s.pbuf := rfl
@[simp] theorem State.setDacChannel_res (c : Fin 4) (k : DacChannel) : (s.setDacChannel c k).res = s.res := rfl
@[simp] theorem State.setDacChannel_faultMark (c : Fin 4) (k : DacChannel) :
    (s.setDacChannel c k).faultMark = s.faultMark := rfl
@[simp] theorem State.setDacChannel_refusalMark (c : Fin 4) (k : DacChannel) :
    (s.setDacChannel c k).refusalMark = s.refusalMark := rfl
@[simp] theorem State.setDacChannel_port (c : Fin 4) (k : DacChannel) : (s.setDacChannel c k).port = s.port := rfl
@[simp] theorem State.setDacChannel_history (c : Fin 4) (k : DacChannel) :
    (s.setDacChannel c k).history = s.history := rfl
@[simp] theorem State.setDacChannel_env (c : Fin 4) (k : DacChannel) : (s.setDacChannel c k).env = s.env := rfl

/-! ### `setReadyTime` -/

@[simp] theorem State.setReadyTime_params (t : Timestamp) : (s.setReadyTime t).params = s.params := rfl
@[simp] theorem State.setReadyTime_adc (t : Timestamp) : (s.setReadyTime t).adc = s.adc := rfl
@[simp] theorem State.setReadyTime_dac (t : Timestamp) : (s.setReadyTime t).dac = s.dac := rfl
@[simp] theorem State.setReadyTime_ee (t : Timestamp) : (s.setReadyTime t).ee = { readyTime := t } := rfl
@[simp] theorem State.setReadyTime_pbuf (t : Timestamp) : (s.setReadyTime t).pbuf = s.pbuf := rfl
@[simp] theorem State.setReadyTime_res (t : Timestamp) : (s.setReadyTime t).res = s.res := rfl
@[simp] theorem State.setReadyTime_faultMark (t : Timestamp) : (s.setReadyTime t).faultMark = s.faultMark := rfl
@[simp] theorem State.setReadyTime_refusalMark (t : Timestamp) : (s.setReadyTime t).refusalMark = s.refusalMark := rfl
@[simp] theorem State.setReadyTime_port (t : Timestamp) : (s.setReadyTime t).port = s.port := rfl
@[simp] theorem State.setReadyTime_history (t : Timestamp) : (s.setReadyTime t).history = s.history := rfl
@[simp] theorem State.setReadyTime_env (t : Timestamp) : (s.setReadyTime t).env = s.env := rfl

/-! ### `setPbuf` -/

@[simp] theorem State.setPbuf_params (m : Memory) : (s.setPbuf m).params = s.params := rfl
@[simp] theorem State.setPbuf_adc (m : Memory) : (s.setPbuf m).adc = s.adc := rfl
@[simp] theorem State.setPbuf_dac (m : Memory) : (s.setPbuf m).dac = s.dac := rfl
@[simp] theorem State.setPbuf_ee (m : Memory) : (s.setPbuf m).ee = s.ee := rfl
@[simp] theorem State.setPbuf_pbuf (m : Memory) : (s.setPbuf m).pbuf = m := rfl
@[simp] theorem State.setPbuf_res (m : Memory) : (s.setPbuf m).res = s.res := rfl
@[simp] theorem State.setPbuf_faultMark (m : Memory) : (s.setPbuf m).faultMark = s.faultMark := rfl
@[simp] theorem State.setPbuf_refusalMark (m : Memory) : (s.setPbuf m).refusalMark = s.refusalMark := rfl
@[simp] theorem State.setPbuf_port (m : Memory) : (s.setPbuf m).port = s.port := rfl
@[simp] theorem State.setPbuf_history (m : Memory) : (s.setPbuf m).history = s.history := rfl
@[simp] theorem State.setPbuf_env (m : Memory) : (s.setPbuf m).env = s.env := rfl

/-! ### `afterMove` -/

@[simp] theorem State.afterMove_params : (s.afterMove).params = s.params := rfl
@[simp] theorem State.afterMove_adc : (s.afterMove).adc = s.adc := rfl
@[simp] theorem State.afterMove_dac : (s.afterMove).dac = s.dac := rfl
@[simp] theorem State.afterMove_ee : (s.afterMove).ee = s.ee := rfl
@[simp] theorem State.afterMove_pbuf : (s.afterMove).pbuf = s.pbuf := rfl
@[simp] theorem State.afterMove_res : (s.afterMove).res = s.res := rfl
@[simp] theorem State.afterMove_faultMark : (s.afterMove).faultMark = s.faultMark := rfl
@[simp] theorem State.afterMove_refusalMark : (s.afterMove).refusalMark = s.refusalMark := rfl
@[simp] theorem State.afterMove_port : (s.afterMove).port = s.port.tail := rfl
@[simp] theorem State.afterMove_history : (s.afterMove).history = s.history := rfl
@[simp] theorem State.afterMove_env : (s.afterMove).env = s.env := rfl

/-! ### `armDeadline` -/

@[simp] theorem State.armDeadline_params : (s.armDeadline).params = s.params := by simp [State.armDeadline]
@[simp] theorem State.armDeadline_adc :
    (s.armDeadline).adc = { s.adc with deadline := timeAfter s.readClock.env.clock (latencyOf s.params s.adc.dr) } := by simp [State.armDeadline]
@[simp] theorem State.armDeadline_dac : (s.armDeadline).dac = s.dac := by simp [State.armDeadline]
@[simp] theorem State.armDeadline_ee : (s.armDeadline).ee = s.ee := by simp [State.armDeadline]
@[simp] theorem State.armDeadline_pbuf : (s.armDeadline).pbuf = s.pbuf := by simp [State.armDeadline]
@[simp] theorem State.armDeadline_res : (s.armDeadline).res = s.res := by simp [State.armDeadline]
@[simp] theorem State.armDeadline_faultMark : (s.armDeadline).faultMark = s.faultMark := by simp [State.armDeadline]
@[simp] theorem State.armDeadline_refusalMark :
    (s.armDeadline).refusalMark = s.refusalMark := by simp [State.armDeadline]
@[simp] theorem State.armDeadline_port : (s.armDeadline).port = s.port := by simp [State.armDeadline]
@[simp] theorem State.armDeadline_history : (s.armDeadline).history = s.history := by simp [State.armDeadline]
@[simp] theorem State.armDeadline_env : (s.armDeadline).env = s.readClock.env := by simp [State.armDeadline]

/-! ### `armReadyTime` -/

@[simp] theorem State.armReadyTime_params : (s.armReadyTime).params = s.params := by simp [State.armReadyTime]
@[simp] theorem State.armReadyTime_adc : (s.armReadyTime).adc = s.adc := by simp [State.armReadyTime]
@[simp] theorem State.armReadyTime_dac : (s.armReadyTime).dac = s.dac := by simp [State.armReadyTime]
@[simp] theorem State.armReadyTime_ee :
    (s.armReadyTime).ee = { readyTime := timeAfter s.readClock.env.clock s.params.eeSettleUs } := by simp [State.armReadyTime]
@[simp] theorem State.armReadyTime_pbuf : (s.armReadyTime).pbuf = s.pbuf := by simp [State.armReadyTime]
@[simp] theorem State.armReadyTime_res : (s.armReadyTime).res = s.res := by simp [State.armReadyTime]
@[simp] theorem State.armReadyTime_faultMark :
    (s.armReadyTime).faultMark = s.faultMark := by simp [State.armReadyTime]
@[simp] theorem State.armReadyTime_refusalMark :
    (s.armReadyTime).refusalMark = s.refusalMark := by simp [State.armReadyTime]
@[simp] theorem State.armReadyTime_port : (s.armReadyTime).port = s.port := by simp [State.armReadyTime]
@[simp] theorem State.armReadyTime_history : (s.armReadyTime).history = s.history := by simp [State.armReadyTime]
@[simp] theorem State.armReadyTime_env : (s.armReadyTime).env = s.readClock.env := by simp [State.armReadyTime]

end Sys2Proof.Machine
end

