-- ==== Sys2Proof/Laws/Ops.lean ====
section
/-! SUPPORT. What each shared operation can do, said once: an environment operation changes nothing but the
environment and the history (`Quiet`), the gate and a page write also the ready time (`QuietEe`), and the bus port's
result is within R61's limits. -/

namespace Sys2Proof.Machine

/-! ### The clock -/

theorem clockForward_le (t : Timestamp) (d : Nat) : t.toNat ≤ (clockForward t d).toNat := by
  have h := t.isLt
  simp only [clockForward, BitVec.toNat_ofNat]
  omega

theorem le_laterOf_left (t u : Timestamp) : t.toNat ≤ (laterOf t u).toNat := by
  unfold laterOf; split <;> omega

theorem le_laterOf_right (t u : Timestamp) : u.toNat ≤ (laterOf t u).toNat := by
  unfold laterOf; split <;> omega

/-- After `SleepUntil(t)` the clock is at `t` or later (R263). -/
theorem State.sleepUntil_reaches (s : State) (t : Timestamp) : t.toNat ≤ (s.sleepUntil t).env.clock.toNat := by
  simp only [State.sleepUntil_env, State.setClock_env]
  exact Nat.le_trans (le_laterOf_right _ _) (clockForward_le _ _)

/-! ### Quiet operations -/

/-- `t` differs from `s` only in the environment and the history, the history goes on from that of `s`, the clock has
not gone back, and the bus is the same kind of environment as before. -/
structure Quiet (s t : State) : Prop where
  same : t = { s with env := t.env, history := t.history }
  clock : s.env.clock.toNat ≤ t.env.clock.toNat
  grows : ∃ evs, t.history = evs ++ s.history
  devices : t.env.devices.isSome = s.env.devices.isSome

theorem Quiet.refl (s : State) : Quiet s s := ⟨rfl, Nat.le_refl _, ⟨[], rfl⟩, rfl⟩

theorem Quiet.trans {s t u : State} (h1 : Quiet s t) (h2 : Quiet t u) : Quiet s u := by
  obtain ⟨a1, b1, ⟨e1, c1⟩, d1⟩ := h1
  obtain ⟨a2, b2, ⟨e2, c2⟩, d2⟩ := h2
  refine ⟨?_, Nat.le_trans b1 b2, ⟨e2 ++ e1, by rw [c2, c1, List.append_assoc]⟩, d2.trans d1⟩
  rw [a2, a1]

section fields
variable {s t : State} (h : Quiet s t)
include h

theorem Quiet.params : t.params = s.params := by rw [h.same]
theorem Quiet.adc : t.adc = s.adc := by rw [h.same]
theorem Quiet.dac : t.dac = s.dac := by rw [h.same]
theorem Quiet.ee : t.ee = s.ee := by rw [h.same]
theorem Quiet.pbuf : t.pbuf = s.pbuf := by rw [h.same]
theorem Quiet.res : t.res = s.res := by rw [h.same]
theorem Quiet.faultMark : t.faultMark = s.faultMark := by rw [h.same]
theorem Quiet.refusalMark : t.refusalMark = s.refusalMark := by rw [h.same]
theorem Quiet.port : t.port = s.port := by rw [h.same]

end fields

theorem State.afterDraw_quiet (s : State) : Quiet s s.afterDraw := ⟨rfl, Nat.le_refl _, ⟨[], rfl⟩, rfl⟩

theorem State.readClock_quiet (s : State) : Quiet s s.readClock := ⟨rfl, clockForward_le _ _, ⟨[], rfl⟩, rfl⟩

theorem State.sleepUntil_quiet (s : State) (t : Timestamp) : Quiet s (s.sleepUntil t) :=
  ⟨rfl, Nat.le_trans (le_laterOf_left _ _) (clockForward_le _ _), ⟨[.sleep t], rfl⟩, rfl⟩

/-! ### The bus port -/

theorem transferResult_le (raw : Int) (len : Nat) : transferResult raw len ≤ len := by
  unfold transferResult; omega

theorem transferResult_ge (raw : Int) (len : Nat) : -(2 ^ 31) ≤ transferResult raw len := by
  unfold transferResult; omega

theorem negativeResult_neg (d : Draw) : negativeResult d < 0 := by
  unfold negativeResult; omega

theorem negativeResult_ge (d : Draw) : -(2 ^ 31) ≤ negativeResult d := by
  unfold negativeResult; omega

theorem RefAdc.write_limits (a : RefAdc) (ps : Params) (t0 t1 : Timestamp) (d : Draw) (bytes : List Byte) :
    (a.write ps t0 t1 d bytes).1 ≤ bytes.length ∧ -(2 ^ 31) ≤ (a.write ps t0 t1 d bytes).1 := by
  unfold RefAdc.write
  dsimp only
  split
  · simp
  · simp
  · exact ⟨transferResult_le _ _, transferResult_ge _ _⟩

theorem RefDac.write_limits (a : RefDac) (ps : Params) (d : Draw) (bytes : List Byte) :
    (a.write ps d bytes).1 ≤ bytes.length ∧ -(2 ^ 31) ≤ (a.write ps d bytes).1 := by
  unfold RefDac.write
  split
  · split
    · simp
    · exact ⟨transferResult_le _ _, transferResult_ge _ _⟩
  · exact ⟨transferResult_le _ _, transferResult_ge _ _⟩

theorem RefEeprom.write_limits (e : RefEeprom) (ps : Params) (t0 t1 : Timestamp) (d : Draw) (bytes : List Byte) :
    (e.write ps t0 t1 d bytes).1 ≤ bytes.length ∧ -(2 ^ 31) ≤ (e.write ps t0 t1 d bytes).1 := by
  unfold RefEeprom.write
  split
  · have := negativeResult_neg d
    have := negativeResult_ge d
    dsimp only
    omega
  · split
    · simp
    · exact ⟨transferResult_le _ _, transferResult_ge _ _⟩
    · simp
    · simp only [List.length_cons]; omega

/-- A write's result is at most the length asked for and within an `i32` (R61). -/
theorem State.writeAnswer_limits (s : State) (bus : BusId) (addr : BusAddr) (bytes : List Byte) :
    (s.writeAnswer bus addr bytes).1 ≤ bytes.length ∧ -(2 ^ 31) ≤ (s.writeAnswer bus addr bytes).1 := by
  unfold State.writeAnswer
  split
  · exact ⟨transferResult_le _ _, transferResult_ge _ _⟩
  · unfold Devices.write
    dsimp only
    split
    · exact RefAdc.write_limits ..
    · split
      · exact RefDac.write_limits ..
      · split
        · exact RefEeprom.write_limits ..
        · have := negativeResult_neg s.nextDraw
          have := negativeResult_ge s.nextDraw
          dsimp only
          omega

theorem drawnBytes_length (d : Draw) (n : Nat) (h : n ≤ 32) : (drawnBytes d n).length = n := by
  simp [drawnBytes, h]

/-- A read's result is at most the length asked for and within an `i32`, and a complete read gives all its bytes (R61,
R62). -/
theorem State.readAnswer_limits (s : State) (bus : BusId) (addr : BusAddr) (n : Nat) (hn : n ≤ 32) :
    (s.readAnswer bus addr n).1 ≤ n ∧ -(2 ^ 31) ≤ (s.readAnswer bus addr n).1 ∧
      (s.readAnswer bus addr n).2.1.length = n := by
  have neg := negativeResult_neg s.nextDraw
  have low := negativeResult_ge s.nextDraw
  unfold State.readAnswer
  split
  · exact ⟨transferResult_le _ _, transferResult_ge _ _, drawnBytes_length _ _ hn⟩
  · unfold Devices.read
    dsimp only
    split
    · unfold RefAdc.read
      dsimp only
      split
      · rename_i h; subst h; simp [bytesOfHalf]
      · exact ⟨transferResult_le _ _, transferResult_ge _ _, drawnBytes_length _ _ hn⟩
    · split
      · exact ⟨transferResult_le _ _, transferResult_ge _ _, drawnBytes_length _ _ hn⟩
      · split
        · unfold RefEeprom.read
          split
          · exact ⟨by dsimp only; omega, low, drawnBytes_length _ _ hn⟩
          · exact ⟨Int.le_refl _, by dsimp only; omega, RefEeprom.load_length _ _ _⟩
        · exact ⟨by dsimp only; omega, low, drawnBytes_length _ _ hn⟩

theorem State.writeAnswer_devices (s : State) (bus : BusId) (addr : BusAddr) (bytes : List Byte) :
    (s.writeAnswer bus addr bytes).2.isSome = s.env.devices.isSome := by
  unfold State.writeAnswer; split <;> simp_all

theorem State.readAnswer_devices (s : State) (bus : BusId) (addr : BusAddr) (n : Nat) :
    (s.readAnswer bus addr n).2.2.isSome = s.env.devices.isSome := by
  unfold State.readAnswer; split <;> simp_all

/-- A write transaction is one event and moves nothing but the environment (R61, R64, R67). -/
theorem State.busWrite_spec (s : State) (bus : BusId) (addr : BusAddr) (bytes : List Byte) (hold : Bool) :
    Quiet s (s.busWrite bus addr bytes hold).2 ∧
    (s.busWrite bus addr bytes hold).1 = (s.writeAnswer bus addr bytes).1 ∧
    (s.busWrite bus addr bytes hold).2.history =
      .write bus addr bytes hold (s.writeAnswer bus addr bytes).1 :: s.history :=
  ⟨⟨rfl, clockForward_le _ _, ⟨[_], rfl⟩, State.writeAnswer_devices ..⟩, rfl, rfl⟩

/-- A read transaction is one event and moves nothing but the environment (R62, R64, R67). -/
theorem State.busRead_spec (s : State) (bus : BusId) (addr : BusAddr) (n : Nat) (hold : Bool) :
    Quiet s (s.busRead bus addr n hold).2.2 ∧
    (s.busRead bus addr n hold).1 = (s.readAnswer bus addr n).1 ∧
    (s.busRead bus addr n hold).2.1 = (s.readAnswer bus addr n).2.1 ∧
    (s.busRead bus addr n hold).2.2.history =
      .read bus addr n hold (s.readAnswer bus addr n).1 (s.readAnswer bus addr n).2.1 :: s.history :=
  ⟨⟨rfl, clockForward_le _ _, ⟨[_], rfl⟩, State.readAnswer_devices ..⟩, rfl, rfl, rfl⟩

/-! ### ADC register access -/

theorem State.adcWriteReg_quiet (s : State) (reg : BitVec 2) (v : Half) : Quiet s (s.adcWriteReg reg v).2 :=
  (State.busWrite_spec ..).1

theorem State.adcReadReg_quiet (s : State) (reg : BitVec 2) : Quiet s (s.adcReadReg reg).2 := by
  unfold State.adcReadReg
  dsimp only
  split
  · split
    · exact (State.busWrite_spec ..).1.trans (State.busRead_spec ..).1
    · exact (State.busWrite_spec ..).1.trans (State.busRead_spec ..).1
  · exact (State.busWrite_spec ..).1

/-! ### EEPROM transactions -/

theorem State.probe_quiet (s : State) : Quiet s s.probe.2 :=
  (State.sleepUntil_quiet ..).trans (State.busWrite_spec ..).1

theorem State.waitForRead_quiet (s : State) : Quiet s s.waitForRead := by
  unfold State.waitForRead
  split
  · exact State.sleepUntil_quiet ..
  · exact Quiet.refl s

theorem State.readPageTransfers_quiet (s : State) (id : Nat) : Quiet s (s.readPageTransfers id).2 := by
  unfold State.readPageTransfers
  dsimp only
  split
  · split
    · exact (State.busWrite_spec ..).1.trans (State.busRead_spec ..).1
    · exact (State.busWrite_spec ..).1.trans (State.busRead_spec ..).1
  · exact (State.busWrite_spec ..).1

theorem State.readPageRaw_quiet (s : State) (id : Nat) : Quiet s (s.readPageRaw id).2 :=
  s.waitForRead_quiet.trans (State.readPageTransfers_quiet _ id)

/-- As `Quiet`, but the ready time may have moved: what the gate and a page write can do. -/
structure QuietEe (s t : State) : Prop where
  same : t = { s with env := t.env, history := t.history, ee := t.ee }
  clock : s.env.clock.toNat ≤ t.env.clock.toNat
  grows : ∃ evs, t.history = evs ++ s.history
  devices : t.env.devices.isSome = s.env.devices.isSome

theorem Quiet.toEe {s t : State} (h : Quiet s t) : QuietEe s t :=
  ⟨by rw [h.same], h.clock, h.grows, h.devices⟩

theorem QuietEe.refl (s : State) : QuietEe s s := (Quiet.refl s).toEe

theorem QuietEe.trans {s t u : State} (h1 : QuietEe s t) (h2 : QuietEe t u) : QuietEe s u := by
  obtain ⟨a1, b1, ⟨e1, c1⟩, d1⟩ := h1
  obtain ⟨a2, b2, ⟨e2, c2⟩, d2⟩ := h2
  refine ⟨?_, Nat.le_trans b1 b2, ⟨e2 ++ e1, by rw [c2, c1, List.append_assoc]⟩, d2.trans d1⟩
  rw [a2, a1]

section fields
variable {s t : State} (h : QuietEe s t)
include h

theorem QuietEe.params : t.params = s.params := by rw [h.same]
theorem QuietEe.adc : t.adc = s.adc := by rw [h.same]
theorem QuietEe.dac : t.dac = s.dac := by rw [h.same]
theorem QuietEe.pbuf : t.pbuf = s.pbuf := by rw [h.same]
theorem QuietEe.res : t.res = s.res := by rw [h.same]
theorem QuietEe.faultMark : t.faultMark = s.faultMark := by rw [h.same]
theorem QuietEe.refusalMark : t.refusalMark = s.refusalMark := by rw [h.same]
theorem QuietEe.port : t.port = s.port := by rw [h.same]

end fields

theorem State.armReadyTime_quietEe (s : State) : QuietEe s s.armReadyTime where
  same := by unfold State.armReadyTime State.readClock State.setReadyTime State.setClock State.afterDraw; rfl
  clock := by rw [State.armReadyTime_env]; exact s.readClock_quiet.clock
  grows := ⟨[], by simp⟩
  devices := by rw [State.armReadyTime_env]; exact s.readClock_quiet.devices

theorem State.gate_quietEe (s : State) (tries : Nat) : QuietEe s (s.gate tries).2 := by
  induction tries generalizing s with
  | zero => exact QuietEe.refl s
  | succ left ih =>
    unfold State.gate
    dsimp only
    split
    · exact (State.probe_quiet s).toEe
    · split
      · exact ((State.probe_quiet s).toEe.trans (State.armReadyTime_quietEe _)).trans (ih _)
      · exact (State.probe_quiet s).toEe

theorem State.writePageRaw_quietEe (s : State) (id : Nat) (p : List Byte) : QuietEe s (s.writePageRaw id p).2 := by
  unfold State.writePageRaw
  dsimp only
  split
  · split
    · exact ((State.gate_quietEe s _).trans (State.busWrite_spec ..).1.toEe).trans (State.armReadyTime_quietEe _)
    · exact (State.gate_quietEe s _).trans (State.busWrite_spec ..).1.toEe
  · exact State.gate_quietEe s _

theorem State.formatPages_quietEe (s : State) (r : List Byte) (failed : BitVec 128) (ids : List Nat) :
    QuietEe s (s.formatPages r failed ids).2 := by
  induction ids generalizing s failed with
  | nil => exact QuietEe.refl s
  | cons id rest ih => exact (State.writePageRaw_quietEe s id r).trans (ih _ _)

theorem State.initPage_quiet (s : State) (id : Nat) : Quiet s (s.initPage id).2 := by
  unfold State.initPage
  split
  · exact State.afterDraw_quiet s
  · exact Quiet.refl s

theorem State.initPages_quietEe (s : State) (failed : BitVec 128) (ids : List Nat) :
    QuietEe s (s.initPages failed ids).2 := by
  induction ids generalizing s failed with
  | nil => exact QuietEe.refl s
  | cons id rest ih =>
    exact ((State.initPage_quiet s id).toEe.trans (State.writePageRaw_quietEe _ id _)).trans (ih _ _)

end Sys2Proof.Machine
end

