-- ==== Sys2Proof/Laws/Draws.lean ====
section
/-! SUPPORT. What each operation on the environment does when the bus is the unrestricted oracle, said by the number of
the choice it takes: a state whose environment is that of `s` after `k` choices takes choice `k` of `s` next. The
meanings of a statement's draws rest on these lemmas alone. -/

namespace Sys2Proof.Machine

theorem State.nextDraw_eq_drawAt (s : State) : s.nextDraw = s.drawAt 0 := by
  unfold State.nextDraw State.drawAt
  cases s.env.script <;> simp

theorem envAfter_zero (s : State) : envAfter s 0 s.env.clock = s.env := by
  simp [envAfter]

/-- The next choice of a state is the choice of `s` that `s` has not come to yet. -/
theorem State.nextDraw_after {s t : State} {k : Nat} {c : Timestamp} (h : t.env = envAfter s k c) :
    t.nextDraw = s.drawAt k := by
  rw [State.nextDraw_eq_drawAt]
  simp [State.drawAt, h, envAfter]

theorem State.Awaits.oracle {s : State} {ds : List Draw} (h : s.Awaits ds) : s.env.devices = none := h.1

/-- Choice `k` of a state that awaits `ds`. -/
theorem State.Awaits.draw {s : State} {ds : List Draw} (h : s.Awaits ds) (k : Nat) (hk : k < ds.length) :
    s.drawAt k = ds[k] := h.2 k hk

theorem State.afterDraw_after {s t : State} {k : Nat} {c : Timestamp} (h : t.env = envAfter s k c) :
    t.afterDraw = { t with env := envAfter s (k + 1) c } := by
  simp [State.afterDraw, h, envAfter, Nat.add_assoc]

/-- `Now()`: one choice, the clock not before the last reading (R262). -/
theorem State.readClock_after {s t : State} {k : Nat} {c : Timestamp} (h : t.env = envAfter s k c) :
    t.readClock = { t with env := envAfter s (k + 1) (clockForward c (s.drawAt k).advance) } := by
  simp [State.readClock, State.nextDraw_after h, State.afterDraw_after h, State.setClock, h, envAfter]

/-- `SleepUntil(u)`: one choice and one event, the clock then at `u` or later (R263). -/
theorem State.sleepUntil_after {s t : State} {k : Nat} {c : Timestamp} (h : t.env = envAfter s k c) (u : Timestamp) :
    ∃ c' : Timestamp, c.toNat ≤ c'.toNat ∧ u.toNat ≤ c'.toNat ∧
      t.sleepUntil u = { t with env := envAfter s (k + 1) c', history := .sleep u :: t.history } := by
  refine ⟨clockForward (laterOf c u) (s.drawAt k).advance, ?_, ?_, ?_⟩
  · exact Nat.le_trans (le_laterOf_left _ _) (clockForward_le _ _)
  · exact Nat.le_trans (le_laterOf_right _ _) (clockForward_le _ _)
  · simp [State.sleepUntil, State.nextDraw_after h, State.afterDraw_after h, State.setClock, State.log, h, envAfter]

/-- A write transaction: one choice and one event, the result what that choice says within R61's limits. -/
theorem State.busWrite_after {s t : State} {k : Nat} {c : Timestamp} (h : t.env = envAfter s k c)
    (ho : s.env.devices = none) (bus : BusId) (addr : BusAddr) (bytes : List Byte) (hold : Bool) :
    ∃ c' : Timestamp, c.toNat ≤ c'.toNat ∧
      t.busWrite bus addr bytes hold = (transferResult (s.drawAt k).result bytes.length,
        { t with
          env := envAfter s (k + 1) c'
          history := .write bus addr bytes hold (transferResult (s.drawAt k).result bytes.length) :: t.history }) := by
  refine ⟨t.transferEnd, ?_, ?_⟩
  · have := clockForward_le t.env.clock (min t.nextDraw.advance (t.params.busTimeoutUs + t.params.transferUs))
    rw [h] at this
    simpa [State.transferEnd, h, envAfter] using this
  · simp [State.busWrite, State.writeAnswer, State.nextDraw_after h, State.afterDraw_after h, State.setClock,
      State.setDevices, State.log, h, envAfter, ho]

/-- A read transaction: one choice and one event, the result and the bytes what that choice says. -/
theorem State.busRead_after {s t : State} {k : Nat} {c : Timestamp} (h : t.env = envAfter s k c)
    (ho : s.env.devices = none) (bus : BusId) (addr : BusAddr) (n : Nat) (hold : Bool) :
    ∃ c' : Timestamp, c.toNat ≤ c'.toNat ∧
      t.busRead bus addr n hold = (transferResult (s.drawAt k).result n, drawnBytes (s.drawAt k) n,
        { t with
          env := envAfter s (k + 1) c'
          history := .read bus addr n hold (transferResult (s.drawAt k).result n) (drawnBytes (s.drawAt k) n) ::
            t.history }) := by
  refine ⟨t.transferEnd, ?_, ?_⟩
  · have := clockForward_le t.env.clock (min t.nextDraw.advance (t.params.busTimeoutUs + t.params.transferUs))
    rw [h] at this
    simpa [State.transferEnd, h, envAfter] using this
  · simp [State.busRead, State.readAnswer, State.nextDraw_after h, State.afterDraw_after h, State.setClock,
      State.setDevices, State.log, h, envAfter, ho]

/-- A transaction succeeds exactly when the choice offers at least the length asked for. -/
theorem transferResult_eq_iff (raw : Int) (len : Nat) (hl : len < 2 ^ 31) :
    transferResult raw len = len ↔ (len : Int) ≤ raw := by
  unfold transferResult; omega

theorem transferResult_of_ge {raw : Int} {len : Nat} (h : (len : Int) ≤ raw) : transferResult raw len = len := by
  unfold transferResult; omega

theorem transferResult_of_lt {raw : Int} {len : Nat} (h : raw < len) : transferResult raw len < len := by
  unfold transferResult; omega

theorem drawnBytes_page (d : Draw) : drawnBytes d 32 = d.data.toList := by
  simp [drawnBytes]

theorem drawnBytes_two (d : Draw) : drawnBytes d 2 = [d.data[0], d.data[1]] := by
  obtain ⟨r, ⟨⟨l⟩, hl⟩, a⟩ := d
  match l, hl with
  | a0 :: a1 :: rest, _ => rfl

end Sys2Proof.Machine
end

