-- ==== Sys2Proof/Laws/Adc.lean ====
section
/-! SUPPORT. What an ADC register access does under the unrestricted oracle, for each way its transactions can go
(spec/41_adc.md R170, R171), what a configuration word read back says, and all that the steps of ADC.START and
ADC.COMPLETE can do in any environment (R172, R173). -/

namespace Sys2Proof.Machine

variable {s t : State} {k : Nat} {c : Timestamp}

/-- A register read that succeeds: two transactions, the value the big-endian word of the bytes read (R171). -/
theorem State.adcReadReg_ok (h : t.env = envAfter s k c) (ho : s.env.devices = none)
    (h1 : 1 ≤ (s.drawAt k).result) (h2 : 2 ≤ (s.drawAt (k + 1)).result) (reg : BitVec 2) :
    ∃ c' : Timestamp, c.toNat ≤ c'.toNat ∧
      t.adcReadReg reg = (some (halfOfBytes (s.drawAt (k + 1)).data[0] (s.drawAt (k + 1)).data[1]),
        { t with
          env := envAfter s (k + 2) c'
          history := registerReadEvents t.params (adcPointerByte reg) (s.drawAt (k + 1)) ++ t.history }) := by
  obtain ⟨c1, e1, w⟩ := State.busWrite_after h ho t.params.adcBus t.params.adcAddr [adcPointerByte reg] true
  rw [show transferResult (s.drawAt k).result [adcPointerByte reg].length = 1 from
    transferResult_of_ge (len := 1) h1] at w
  obtain ⟨c2, e2, r⟩ := State.busRead_after (t := (t.busWrite t.params.adcBus t.params.adcAddr
    [adcPointerByte reg] true).2) (k := k + 1) (c := c1) (by rw [w]) ho t.params.adcBus t.params.adcAddr 2 false
  rw [show transferResult (s.drawAt (k + 1)).result 2 = 2 from transferResult_of_ge (len := 2) h2,
    drawnBytes_two] at r
  refine ⟨c2, Nat.le_trans e1 e2, ?_⟩
  rw [w] at r
  simp only [State.adcReadReg, w, if_true, r]
  rfl

/-- A register read whose pointer write is not taken: one transaction, no read (R171). -/
theorem State.adcReadReg_noPointer (h : t.env = envAfter s k c) (ho : s.env.devices = none)
    (h1 : (s.drawAt k).result < 1) (reg : BitVec 2) :
    ∃ (c' : Timestamp) (r : Int), c.toNat ≤ c'.toNat ∧ r < 1 ∧
      t.adcReadReg reg = (none,
        { t with
          env := envAfter s (k + 1) c'
          history := .write t.params.adcBus t.params.adcAddr [adcPointerByte reg] true r :: t.history }) := by
  obtain ⟨c1, e1, w⟩ := State.busWrite_after h ho t.params.adcBus t.params.adcAddr [adcPointerByte reg] true
  have hr : transferResult (s.drawAt k).result [adcPointerByte reg].length < 1 := transferResult_of_lt (len := 1) h1
  refine ⟨c1, _, e1, hr, ?_⟩
  simp only [State.adcReadReg, w, if_neg (Int.ne_of_lt hr)]

/-- A register read whose data falls short: both transactions, no value (R171). -/
theorem State.adcReadReg_short (h : t.env = envAfter s k c) (ho : s.env.devices = none)
    (h1 : 1 ≤ (s.drawAt k).result) (h2 : (s.drawAt (k + 1)).result < 2) (reg : BitVec 2) :
    ∃ (c' : Timestamp) (r : Int) (data : List Byte), c.toNat ≤ c'.toNat ∧ r < 2 ∧
      t.adcReadReg reg = (none,
        { t with
          env := envAfter s (k + 2) c'
          history := .read t.params.adcBus t.params.adcAddr 2 false r data ::
            .write t.params.adcBus t.params.adcAddr [adcPointerByte reg] true 1 :: t.history }) := by
  obtain ⟨c1, e1, w⟩ := State.busWrite_after h ho t.params.adcBus t.params.adcAddr [adcPointerByte reg] true
  rw [show transferResult (s.drawAt k).result [adcPointerByte reg].length = 1 from
    transferResult_of_ge (len := 1) h1] at w
  obtain ⟨c2, e2, r⟩ := State.busRead_after (t := (t.busWrite t.params.adcBus t.params.adcAddr
    [adcPointerByte reg] true).2) (k := k + 1) (c := c1) (by rw [w]) ho t.params.adcBus t.params.adcAddr 2 false
  have hr : transferResult (s.drawAt (k + 1)).result 2 < 2 := transferResult_of_lt (len := 2) h2
  refine ⟨c2, _, drawnBytes (s.drawAt (k + 1)) 2, Nat.le_trans e1 e2, hr, ?_⟩
  rw [w] at r
  simp only [State.adcReadReg, w, if_true, r, if_neg (Int.ne_of_lt hr)]

/-! ### A configuration word read back -/

theorem halfOfBytes_toNat (hi lo : Byte) : (halfOfBytes hi lo).toNat = bigEndian hi lo := by
  rw [halfOfBytes, BitVec.toNat_append, ← Nat.shiftLeft_add_eq_or_of_lt lo.isLt, Nat.shiftLeft_eq, bigEndian]

/-- What the block decodes of a word read back: its channel and its status. -/
theorem ReadsBack.unpack {d : Draw} {channel os : Nat} (h : ReadsBack d channel os) :
    (unpackWord (halfOfBytes d.data[0] d.data[1])).mux.toNat = channel ∧
    (unpackWord (halfOfBytes d.data[0] d.data[1])).os.toNat = os := by
  obtain ⟨h1, h2⟩ := h
  have hw := (halfOfBytes d.data[0] d.data[1]).isLt
  simp only [unpackWord, BitVec.extractLsb'_toNat, Nat.shiftRight_eq_div_pow, halfOfBytes_toNat] at *
  omega

/-! ### The steps of ADC.START and ADC.COMPLETE, in every environment -/

/-- As `Quiet`, but `S.adc` may have changed: what the steps of the ADC unit can do. -/
structure QuietAdc (s t : State) : Prop where
  same : t = { s with env := t.env, history := t.history, adc := t.adc }
  clock : s.env.clock.toNat ≤ t.env.clock.toNat
  grows : ∃ evs, t.history = evs ++ s.history
  devices : t.env.devices.isSome = s.env.devices.isSome

theorem Quiet.toAdc (h : Quiet s t) : QuietAdc s t := ⟨by rw [h.same], h.clock, h.grows, h.devices⟩

theorem QuietAdc.trans {u : State} (h1 : QuietAdc s t) (h2 : QuietAdc t u) : QuietAdc s u := by
  obtain ⟨a1, b1, ⟨e1, c1⟩, d1⟩ := h1
  obtain ⟨a2, b2, ⟨e2, c2⟩, d2⟩ := h2
  refine ⟨?_, Nat.le_trans b1 b2, ⟨e2 ++ e1, by rw [c2, c1, List.append_assoc]⟩, d2.trans d1⟩
  rw [a2, a1]

/-- Changing `S.adc` and nothing else. -/
theorem QuietAdc.of_adc (s : State) (a : AdcState) : QuietAdc s { s with adc := a } :=
  ⟨rfl, Nat.le_refl _, ⟨[], rfl⟩, rfl⟩

theorem State.armDeadline_quietAdc (s : State) : QuietAdc s s.armDeadline :=
  s.readClock_quiet.toAdc.trans (.of_adc ..)

theorem bytesOfHalf_eq (w : Half) : bytesOfHalf w = bigEndianBytes w.toNat := by
  have := w.isLt
  simp [bytesOfHalf, bigEndianBytes, hiByte, loByte, ← BitVec.toNat_inj, BitVec.extractLsb'_toNat,
    Nat.shiftRight_eq_div_pow]

/-- A register write is one transaction, and succeeds where all three bytes were taken (R170). -/
theorem State.adcWriteReg_spec (s : State) (v : Half) :
    ∃ r : Int, (s.adcWriteReg 0b01 v).1 = decide (r = 3) ∧
      (s.adcWriteReg 0b01 v).2.history =
        .write s.params.adcBus s.params.adcAddr (0x01 :: bigEndianBytes v.toNat) false r :: s.history :=
  ⟨_, rfl, by rw [← bytesOfHalf_eq]; rfl⟩

/-- All that the steps of ADC.START can do: the refusal, the accepted start, and the start the bus did not take. -/
theorem State.startSteps_cases (s : State) (c : BitVec 3) (md : BitVec 1) :
    (s.adc.phase = .converting ∧ s.startSteps c md = (.error .busy, s)) ∨
    (s.adc.phase ≠ .converting ∧ QuietAdc s (s.startSteps c md).2 ∧ ∃ r : Int,
      (s.startSteps c md).2.history = .write s.params.adcBus s.params.adcAddr
        (0x01 :: bigEndianBytes (s.startWord c md).toNat) false r :: s.history ∧
      ((r = 3 ∧ (s.startSteps c md).1 = .ok (.word (s.startWord c md)) ∧ ∃ t,
          (s.startSteps c md).2.adc = { s.adc with phase := .converting, cacheValid := false, deadline := t }) ∨
        (r ≠ 3 ∧ (s.startSteps c md).1 = .error .bus ∧
          (s.startSteps c md).2.adc = { s.adc with phase := .error, cacheValid := false }))) := by
  unfold State.startSteps
  split
  · exact Or.inl ⟨‹_›, rfl⟩
  · obtain ⟨r, h1, h2⟩ := s.dropCache.adcWriteReg_spec (s.startWord c md)
    have q : QuietAdc s (s.dropCache.adcWriteReg 0b01 (s.startWord c md)).2 :=
      (QuietAdc.of_adc s _).trans (State.adcWriteReg_quiet ..).toAdc
    refine Or.inr ⟨‹_›, ?_⟩
    dsimp only
    rw [h1]
    by_cases hr : r = 3
    · rw [if_pos (decide_eq_true hr)]
      exact ⟨(q.trans (State.armDeadline_quietAdc _)).trans (.of_adc ..), r, h2, Or.inl ⟨hr, rfl, _, rfl⟩⟩
    · rw [if_neg (by simpa using hr)]
      exact ⟨q.trans (.of_adc ..), r, h2, Or.inr ⟨hr, rfl, rfl⟩⟩

/-- All that the attempts of ADC.COMPLETE can do, where a conversion is pending or not: read it, fail on the bus or on
the channel, or leave it pending, with the deadline moved or not. -/
theorem State.completeAttempts_cases (s : State) (c : BitVec 3) (tries : Nat) :
    QuietAdc s (s.completeAttempts c tries).2 ∧ ∃ d : Timestamp,
      (∃ v, (s.completeAttempts c tries).1 = .ok (.count v) ∧ (s.completeAttempts c tries).2.adc =
        { s.adc with phase := .ready, deadline := d, lastRead := v, cacheValid := true, cacheChannel := c }) ∨
      (((s.completeAttempts c tries).1 = .error .bus ∨ (s.completeAttempts c tries).1 = .error .mismatch) ∧
        (s.completeAttempts c tries).2.adc = { s.adc with phase := .error, deadline := d }) ∨
      ((s.completeAttempts c tries).1 = .error .pending ∧
        (s.completeAttempts c tries).2.adc = { s.adc with deadline := d }) := by
  induction tries generalizing s with
  | zero => exact ⟨(Quiet.refl s).toAdc, s.adc.deadline, Or.inr (Or.inr ⟨rfl, rfl⟩)⟩
  | succ left ih =>
    have q1 := (State.sleepUntil_quiet s s.adc.deadline).trans
      (State.adcReadReg_quiet (s.sleepUntil s.adc.deadline) 0b01)
    have e1 := q1.adc
    unfold State.completeAttempts
    dsimp only
    split
    · exact ⟨q1.toAdc.trans (.of_adc ..), s.adc.deadline, Or.inr (Or.inl ⟨Or.inl rfl, by
        simp only [State.setPhase, e1]⟩)⟩
    · split
      · exact ⟨q1.toAdc.trans (.of_adc ..), s.adc.deadline, Or.inr (Or.inl ⟨Or.inr rfl, by
          simp only [State.setPhase, e1]⟩)⟩
      · split
        · have q2 := q1.trans (State.adcReadReg_quiet ((s.sleepUntil s.adc.deadline).adcReadReg 0b01).2 0b00)
          have e2 := q2.adc
          split
          · exact ⟨q2.toAdc.trans (.of_adc ..), s.adc.deadline, Or.inr (Or.inl ⟨Or.inl rfl, by
              simp only [State.setPhase, e2]⟩)⟩
          · exact ⟨q2.toAdc.trans (.of_adc ..), s.adc.deadline, Or.inl ⟨_, rfl, by
              simp only [State.keepConversion, e2]⟩⟩
        · split
          · obtain ⟨q, d, h⟩ := ih ((s.sleepUntil s.adc.deadline).adcReadReg 0b01).2.armDeadline
            refine ⟨(q1.toAdc.trans (State.armDeadline_quietAdc _)).trans q, d, ?_⟩
            rw [State.armDeadline_adc, e1] at h
            exact h
          · obtain ⟨q, d, h⟩ := ih ((s.sleepUntil s.adc.deadline).adcReadReg 0b01).2
            rw [e1] at h
            exact ⟨q1.toAdc.trans q, d, h⟩

/-- The steps of ADC.COMPLETE: the refusal, or the attempts. -/
theorem State.completeSteps_cases (s : State) (c : BitVec 3) :
    (s.adc.phase ≠ .converting ∧ s.completeSteps c = (.error .notConverting, s)) ∨
    (s.adc.phase = .converting ∧ s.completeSteps c = s.completeAttempts c s.params.adcCompleteTries) := by
  unfold State.completeSteps
  split
  · exact Or.inr ⟨‹_›, rfl⟩
  · exact Or.inl ⟨‹_›, rfl⟩

end Sys2Proof.Machine
end

