-- ==== Sys2Proof/Laws/PerInstr.lean ====
section
/-! SUPPORT. The per-instruction family `OperandRecordFits`: the operand record an operation is presented with has the
shape that its code selects (spec/30_encoding.md R90, R93). One lemma per operation. -/

namespace Sys2Proof.Laws

/-- A number of a field's width is admitted as an operand of that width. -/
theorem admits_bits (w : Nat) (x : BitVec w) : (OperandKind.bits w).admits (x.toNat : Int) = true := by
  have h := x.isLt
  simp only [OperandKind.admits, decide_eq_true_eq]
  exact ⟨by omega, by exact_mod_cast h⟩

/-- A signed count is admitted as an `i16` operand. -/
theorem admits_i16 (x : Half) : OperandKind.i16.admits x.toInt = true := by
  have h := BitVec.toInt_lt (x := x)
  have h' := BitVec.le_toInt (x := x)
  simp only [OperandKind.admits, decide_eq_true_eq]
  omega

/-- A natural is admitted as an operand that is saturated. -/
theorem admits_nat (n : Nat) : OperandKind.nat.admits (n : Int) = true := by
  simp [OperandKind.admits]

/-- Every integer is admitted where an unbounded integer is asked for. -/
theorem admits_int (x : Int) : OperandKind.int.admits x = true := rfl

/-- 0 or 1, as a truth value is written, is admitted as a `Bool` operand. -/
theorem admits_bool (b : Bool) : OperandKind.bool.admits (if b then 1 else 0) = true := by
  cases b <;> rfl

/-- The record of an operation has the shape that its code selects. -/
def OperandRecordFits.Statement (i : Instr) : Prop :=
  ∃ f, codeFormat (instrCode i) = some f ∧ recordFits (formatKinds f) (instrRecord i) = true

theorem OperandRecordFits.codecPack (os mux pga mode dr cmode cpol clat cque : Nat) :
    OperandRecordFits.Statement (.codecPack os mux pga mode dr cmode cpol clat cque) :=
  ⟨_, rfl, by simp only [formatKinds, recordFits, instrRecord, admits_nat, Bool.and_self]⟩

theorem OperandRecordFits.codecUnpack (word : Half) :
    OperandRecordFits.Statement (.codecUnpack word) :=
  ⟨_, rfl, by simp only [formatKinds, recordFits, instrRecord, admits_bits, Bool.and_self]⟩

theorem OperandRecordFits.codecNum2os (n : Nat) :
    OperandRecordFits.Statement (.codecNum2os n) :=
  ⟨_, rfl, by simp only [formatKinds, recordFits, instrRecord, admits_nat, Bool.and_self]⟩

theorem OperandRecordFits.codecNum2mux (n : Nat) :
    OperandRecordFits.Statement (.codecNum2mux n) :=
  ⟨_, rfl, by simp only [formatKinds, recordFits, instrRecord, admits_nat, Bool.and_self]⟩

theorem OperandRecordFits.codecNum2pga (n : Nat) :
    OperandRecordFits.Statement (.codecNum2pga n) :=
  ⟨_, rfl, by simp only [formatKinds, recordFits, instrRecord, admits_nat, Bool.and_self]⟩

theorem OperandRecordFits.codecNum2mode (n : Nat) :
    OperandRecordFits.Statement (.codecNum2mode n) :=
  ⟨_, rfl, by simp only [formatKinds, recordFits, instrRecord, admits_nat, Bool.and_self]⟩

theorem OperandRecordFits.codecNum2dr (n : Nat) :
    OperandRecordFits.Statement (.codecNum2dr n) :=
  ⟨_, rfl, by simp only [formatKinds, recordFits, instrRecord, admits_nat, Bool.and_self]⟩

theorem OperandRecordFits.codecNum2cmode (n : Nat) :
    OperandRecordFits.Statement (.codecNum2cmode n) :=
  ⟨_, rfl, by simp only [formatKinds, recordFits, instrRecord, admits_nat, Bool.and_self]⟩

theorem OperandRecordFits.codecNum2cpol (n : Nat) :
    OperandRecordFits.Statement (.codecNum2cpol n) :=
  ⟨_, rfl, by simp only [formatKinds, recordFits, instrRecord, admits_nat, Bool.and_self]⟩

theorem OperandRecordFits.codecNum2clat (n : Nat) :
    OperandRecordFits.Statement (.codecNum2clat n) :=
  ⟨_, rfl, by simp only [formatKinds, recordFits, instrRecord, admits_nat, Bool.and_self]⟩

theorem OperandRecordFits.codecNum2cque (n : Nat) :
    OperandRecordFits.Statement (.codecNum2cque n) :=
  ⟨_, rfl, by simp only [formatKinds, recordFits, instrRecord, admits_nat, Bool.and_self]⟩

theorem OperandRecordFits.codecLatency (n : Nat) :
    OperandRecordFits.Statement (.codecLatency n) :=
  ⟨_, rfl, by simp only [formatKinds, recordFits, instrRecord, admits_nat, Bool.and_self]⟩

theorem OperandRecordFits.codecFsr (n : Nat) :
    OperandRecordFits.Statement (.codecFsr n) :=
  ⟨_, rfl, by simp only [formatKinds, recordFits, instrRecord, admits_nat, Bool.and_self]⟩

theorem OperandRecordFits.codecVolts (counts : Half) (pga : Nat) :
    OperandRecordFits.Statement (.codecVolts counts pga) :=
  ⟨_, rfl, by simp only [formatKinds, recordFits, instrRecord, admits_i16, admits_nat, Bool.and_self]⟩

theorem OperandRecordFits.codecCtrlbyte (nibble : BitVec 4) (cs : BitVec 3) :
    OperandRecordFits.Statement (.codecCtrlbyte nibble cs) :=
  ⟨_, rfl, by simp only [formatKinds, recordFits, instrRecord, admits_bits, Bool.and_self]⟩

theorem OperandRecordFits.codecSig :
    OperandRecordFits.Statement .codecSig :=
  ⟨_, rfl, rfl⟩

theorem OperandRecordFits.adcConfig (pga dr cmode cpol clat cque : Nat) :
    OperandRecordFits.Statement (.adcConfig pga dr cmode cpol clat cque) :=
  ⟨_, rfl, by simp only [formatKinds, recordFits, instrRecord, admits_nat, Bool.and_self]⟩

theorem OperandRecordFits.adcStart (ch mode : Nat) :
    OperandRecordFits.Statement (.adcStart ch mode) :=
  ⟨_, rfl, by simp only [formatKinds, recordFits, instrRecord, admits_nat, Bool.and_self]⟩

theorem OperandRecordFits.adcComplete (ch : Nat) :
    OperandRecordFits.Statement (.adcComplete ch) :=
  ⟨_, rfl, by simp only [formatKinds, recordFits, instrRecord, admits_nat, Bool.and_self]⟩

theorem OperandRecordFits.adcReadc (ch : Nat) (force : Bool) :
    OperandRecordFits.Statement (.adcReadc ch force) :=
  ⟨_, rfl, by simp only [formatKinds, recordFits, instrRecord, admits_nat, admits_bool, Bool.and_self]⟩

theorem OperandRecordFits.adcStatus :
    OperandRecordFits.Statement .adcStatus :=
  ⟨_, rfl, rfl⟩

theorem OperandRecordFits.dacClamp (data : Int) :
    OperandRecordFits.Statement (.dacClamp data) :=
  ⟨_, rfl, by simp only [formatKinds, recordFits, instrRecord, admits_int, Bool.and_self]⟩

theorem OperandRecordFits.dacFrame (ch pd gain vref : Nat) (data : Int) :
    OperandRecordFits.Statement (.dacFrame ch pd gain vref data) :=
  ⟨_, rfl, by simp only [formatKinds, recordFits, instrRecord, admits_nat, admits_int, Bool.and_self]⟩

theorem OperandRecordFits.dacSetcfg (ch pd gain vref : Nat) :
    OperandRecordFits.Statement (.dacSetcfg ch pd gain vref) :=
  ⟨_, rfl, by simp only [formatKinds, recordFits, instrRecord, admits_nat, Bool.and_self]⟩

theorem OperandRecordFits.dacWrite (ch : Nat) (data : Int) :
    OperandRecordFits.Statement (.dacWrite ch data) :=
  ⟨_, rfl, by simp only [formatKinds, recordFits, instrRecord, admits_nat, admits_int, Bool.and_self]⟩

theorem OperandRecordFits.eeRead (id : Nat) :
    OperandRecordFits.Statement (.eeRead id) :=
  ⟨_, rfl, by simp only [formatKinds, recordFits, instrRecord, admits_nat, Bool.and_self]⟩

theorem OperandRecordFits.eeWrite (id : Nat) :
    OperandRecordFits.Statement (.eeWrite id) :=
  ⟨_, rfl, by simp only [formatKinds, recordFits, instrRecord, admits_nat, Bool.and_self]⟩

theorem OperandRecordFits.eeReady (tries : Nat) :
    OperandRecordFits.Statement (.eeReady tries) :=
  ⟨_, rfl, by simp only [formatKinds, recordFits, instrRecord, admits_nat, Bool.and_self]⟩

theorem OperandRecordFits.eeFormat :
    OperandRecordFits.Statement .eeFormat :=
  ⟨_, rfl, rfl⟩

theorem OperandRecordFits.eeInit :
    OperandRecordFits.Statement .eeInit :=
  ⟨_, rfl, rfl⟩

theorem OperandRecordFits.eeChecksig :
    OperandRecordFits.Statement .eeChecksig :=
  ⟨_, rfl, rfl⟩

end Sys2Proof.Laws
end

