-- ==== Sys2Proof/Tests/Slice0.lean ====
section
/-! SUPPORT. Tests of the model. What each expects is from spec/95_test_vectors.md (the vector is named), or worked out
by hand from the rule named; the board below fixes the OPEN parameters, as the vectors do by name. The last part shows,
for every statement with hypotheses, a state and operands that meet them. -/

namespace Sys2Proof.Machine

/-! ### The operand record (R90, R93): one ill-formed record for each check -/

/-- A natural operand is not negative. -/
theorem test_record_refuses_negative_natural : recordFits [.nat] [-1] = false := by decide
/-- A `u16` is below 65536. -/
theorem test_record_refuses_wide_word : recordFits [.bits 16] [65536] = false := by decide
/-- A `u3` is not negative. -/
theorem test_record_refuses_negative_field : recordFits [.bits 4, .bits 3] [10, -1] = false := by decide
/-- An `i16` is at most 32767. -/
theorem test_record_refuses_wide_count : recordFits [.i16, .nat] [32768, 0] = false := by decide
/-- An `i16` is at least -32768, and that is one. -/
theorem test_record_admits_least_count : recordFits [.i16, .nat] [-32768, 0] = true := by decide
/-- A `Bool` is 0 or 1. -/
theorem test_record_refuses_bool_two : recordFits [.nat, .bool] [4, 2] = false := by decide
/-- An operand too few, and one too many. -/
theorem test_record_refuses_wrong_count :
    recordFits [.nat, .nat] [4] = false ∧ recordFits [.nat] [4, 1] = false ∧ recordFits [] [0] = false := by decide
/-- The decoder refuses such a record by name. -/
theorem test_decode_refuses_wrong_shape :
    decode ⟨0x11, [4]⟩ = .wrongShape ∧ decode ⟨0x01, [65536]⟩ = .wrongShape ∧ decode ⟨0x13, [4, 2]⟩ = .wrongShape := by
  decide

/-! ### Decoding (R92): the code and record of every operation, written out from the map and the formats -/

theorem test_decode_codec_pack :
    decode ⟨0x00, [1, 4, 1, 1, 7, 0, 0, 0, 3]⟩ = .instr (.codecPack 1 4 1 1 7 0 0 0 3) := by decide
theorem test_decode_codec_unpack : decode ⟨0x01, [0x8583]⟩ = .instr (.codecUnpack 0x8583) := by decide
theorem test_decode_codec_num2os : decode ⟨0x02, [5]⟩ = .instr (.codecNum2os 5) := by decide
theorem test_decode_codec_num2mux : decode ⟨0x03, [9]⟩ = .instr (.codecNum2mux 9) := by decide
theorem test_decode_codec_num2pga : decode ⟨0x04, [7]⟩ = .instr (.codecNum2pga 7) := by decide
theorem test_decode_codec_num2mode : decode ⟨0x05, [2]⟩ = .instr (.codecNum2mode 2) := by decide
theorem test_decode_codec_num2dr : decode ⟨0x06, [100]⟩ = .instr (.codecNum2dr 100) := by decide
theorem test_decode_codec_num2cmode : decode ⟨0x07, [3]⟩ = .instr (.codecNum2cmode 3) := by decide
theorem test_decode_codec_num2cpol : decode ⟨0x08, [0]⟩ = .instr (.codecNum2cpol 0) := by decide
theorem test_decode_codec_num2clat : decode ⟨0x09, [1]⟩ = .instr (.codecNum2clat 1) := by decide
theorem test_decode_codec_num2cque : decode ⟨0x0A, [4]⟩ = .instr (.codecNum2cque 4) := by decide
theorem test_decode_codec_latency : decode ⟨0x0B, [7]⟩ = .instr (.codecLatency 7) := by decide
theorem test_decode_codec_fsr : decode ⟨0x0C, [1]⟩ = .instr (.codecFsr 1) := by decide
theorem test_decode_codec_volts : decode ⟨0x0D, [-200, 2]⟩ = .instr (.codecVolts 0xFF38 2) := by decide
theorem test_decode_codec_ctrlbyte : decode ⟨0x0E, [0b1010, 7]⟩ = .instr (.codecCtrlbyte 0b1010 7) := by decide
theorem test_decode_codec_sig : decode ⟨0x0F, []⟩ = .instr .codecSig := by decide
theorem test_decode_adc_config : decode ⟨0x10, [1, 7, 0, 0, 0, 3]⟩ = .instr (.adcConfig 1 7 0 0 0 3) := by decide
theorem test_decode_adc_start : decode ⟨0x11, [4, 1]⟩ = .instr (.adcStart 4 1) := by decide
theorem test_decode_adc_complete : decode ⟨0x12, [4]⟩ = .instr (.adcComplete 4) := by decide
theorem test_decode_adc_readc : decode ⟨0x13, [4, 1]⟩ = .instr (.adcReadc 4 true) := by decide
theorem test_decode_adc_status : decode ⟨0x14, []⟩ = .instr .adcStatus := by decide
theorem test_decode_dac_clamp : decode ⟨0x20, [-100000]⟩ = .instr (.dacClamp (-100000)) := by decide
theorem test_decode_dac_frame : decode ⟨0x21, [2, 9, 9, 9, -5]⟩ = .instr (.dacFrame 2 9 9 9 (-5)) := by decide
theorem test_decode_dac_setcfg : decode ⟨0x22, [1, 0, 1, 1]⟩ = .instr (.dacSetcfg 1 0 1 1) := by decide
theorem test_decode_dac_write : decode ⟨0x23, [0, -10]⟩ = .instr (.dacWrite 0 (-10)) := by decide
theorem test_decode_ee_read : decode ⟨0x30, [127]⟩ = .instr (.eeRead 127) := by decide
theorem test_decode_ee_write : decode ⟨0x31, [2]⟩ = .instr (.eeWrite 2) := by decide
theorem test_decode_ee_ready : decode ⟨0x32, [1]⟩ = .instr (.eeReady 1) := by decide
theorem test_decode_ee_format : decode ⟨0x33, []⟩ = .instr .eeFormat := by decide
theorem test_decode_ee_init : decode ⟨0x34, []⟩ = .instr .eeInit := by decide
theorem test_decode_ee_checksig : decode ⟨0x35, []⟩ = .instr .eeChecksig := by decide
/-- X2: the first and last code of each reserved range. -/
theorem test_decode_reserved :
    [0x15, 0x1F, 0x24, 0x2F, 0x36, 0xFF].map (fun c => decode ⟨c, [7]⟩) = List.replicate 6 .reserved := by decide

/-! ### Assembler lines (R94) -/

theorem test_assembler_example : parseLine "ADC.START 4, 1".toList = some ⟨0x11, [4, 1]⟩ := by decide
theorem test_assembler_literals :
    parseLine "  DAC.FRAME 0b10, 1, 0, 0, 0x123 ; a comment".toList = some ⟨0x21, [2, 1, 0, 0, 0x123]⟩ := by decide
theorem test_assembler_negative : parseLine "DAC.WRITE 0, -10".toList = some ⟨0x23, [0, -10]⟩ := by decide
theorem test_assembler_unknown : parseLine "EE.ERASE 1".toList = none := by decide
theorem test_assembler_print : parseLine (assemblyLine (.dacWrite 0 (-10))).toList = some ⟨0x23, [0, -10]⟩ := by decide

/-! ### A board and its environment -/

/-- A board: the stated values of 00_scope.md's table, and example values of the OPEN parameters (SIG_PATTERN and
BUILD_DATE those of C34). -/
def board : Params where
  adcHasComparator := true
  adcAddr := 0x48
  adcBus := .bus0
  dacBus := .bus1
  eeBus := .bus0
  dacSubaddr := 0
  dacClassNibble := 0b1100
  dacCmdMultiwrite := 0b01000
  dacUdac := 0
  eeClassNibble := 0b1010
  eeCs := 0
  eePages := 128
  eePageSize := 32
  eeSigPage := 127
  eeSettleUs := 5000
  eeWriteTries := 3
  adcCompleteTries := 2
  latencyUs := #v[162000, 81000, 40500, 21000, 10500, 6000, 3000, 1500]
  fsrMv := #v[6144, 4096, 2048, 1024, 512, 256]
  dacMax := 4095
  countsFull := 32767
  sigPattern := ⟨⟨[0x42, 0x50, 0x49, 0x43, 0x4F]⟩, rfl⟩
  buildDate := ⟨⟨[0x07, 0xEA, 0x0B, 0x0B]⟩, rfl⟩
  initContent := Vector.replicate 127 (Vector.replicate 32 0xFF)
  busTimeoutUs := 25000
  readWaitsForReady := false
  adcRetryRearm := true
  compDefault := 0b00011
  transferUs := 1000

/-- The board's parameters, and with them its switches P1, P26 and P27 set otherwise, are the stated ones. -/
theorem board_stated (comparator waits rearm : Bool) :
    { board with adcHasComparator := comparator, readWaitsForReady := waits, adcRetryRearm := rearm }.Stated := by
  constructor <;> rfl

/-- So are those of this hardware. -/
theorem test_stated_parameters : Config.params.Stated := by constructor <;> rfl

/-- A page that begins with the bytes given and goes on with zeros. -/
def pageOf (bs : List Byte) : Page := ⟨⟨(bs ++ List.replicate 32 0).take 32⟩, by simp⟩

/-- A transaction's choice under VC: what the bus answers, the bytes, 100 µs. -/
def answer (r : Int) (bs : List Byte) : Draw := ⟨r, pageOf bs, 100⟩

/-- A clock read or a sleep under VC: it takes no time. -/
def tick : Draw := ⟨0, pageOf [], 0⟩

/-- The board after reset, with the environment's next choices. -/
def boardState (ds : List Draw) : State :=
  { State.reset with params := board, env := { State.reset.env with script := ds } }

/-- The same with a conversion of channel 4 pending, as A1 leaves it. -/
def convertingState (ds : List Draw) : State :=
  { boardState ds with
    adc := { AdcState.reset with phase := .converting, deadline := 10600 }
    env := { State.reset.env with clock := 100, script := ds } }

/-- The same without `ADC_RETRY_REARM`. -/
def steadyState (ds : List Draw) : State :=
  { convertingState ds with params := { board with adcRetryRearm := false } }

/-- PBUF with the bytes 00 to 1F. -/
def countingPbuf : Memory := Memory.writeBytes [] 0 ((List.range 32).map (BitVec.ofNat 8))

/-- Something of the next state, `none` where there is none. -/
def next? {α : Type} (o : Host.Outcome State Fault Refusal) (f : State → α) : Option α :=
  match o with
  | .next t => some (f t)
  | _ => none

/-- The transactions of a state's history, oldest first. -/
def traffic (s : State) : List Event := (transfers s.history).reverse

theorem test_reset_memory : State.reset.pbuf.wf = true := by decide
/-- A state of the board before any operation is idle. -/
theorem test_idle_step : next? (step (boardState [])) State.port = some [] := by decide
/-- A program word placed at reset is what the next step runs. -/
theorem test_fetch_word : decodeTableWord 8 0x14 = some .adcStatus ∧
    next? (step ((boardState []).withFetchWord 8 0x14)) State.res =
      some { ok := true, err := .none, value := .status AdcState.reset } := by decide

/-! ### Codec operations -/

/-- C1. -/
theorem test_codec_pack :
    next? (exec (.codecPack 1 4 1 1 7 0 0 0 3) (boardState [])) (·.res.value) = some (.word 0xC3E3) := by decide
/-- C4. -/
theorem test_codec_pack_saturates :
    next? (exec (.codecPack 9 9 9 9 9 9 9 9 9) (boardState [])) (·.res.value) = some (.word 0xFBFF) := by decide
/-- C7. -/
theorem test_codec_unpack : next? (exec (.codecUnpack 0x8583) (boardState [])) (·.res.value) =
    some (.fields ⟨1, 0, 2, 1, 4, 0, 0, 0, 3⟩) := by decide
/-- C8. -/
theorem test_codec_unpack_pga : next? (exec (.codecUnpack 0xFFFF) (boardState [])) (·.res.value) =
    some (.fields ⟨1, 7, 5, 1, 7, 1, 1, 1, 3⟩) := by decide
/-- C11. -/
theorem test_codec_num2os : next? (exec (.codecNum2os 5) (boardState [])) (·.res.value) = some (.nat 1) := by decide
/-- C12. -/
theorem test_codec_num2mux : next? (exec (.codecNum2mux 8) (boardState [])) (·.res.value) = some (.nat 7) := by decide
/-- C13. -/
theorem test_codec_num2pga : next? (exec (.codecNum2pga 6) (boardState [])) (·.res.value) = some (.nat 5) := by decide
/-- C14. -/
theorem test_codec_num2mode : next? (exec (.codecNum2mode 2) (boardState [])) (·.res.value) = some (.nat 1) := by decide
/-- C15. -/
theorem test_codec_num2dr : next? (exec (.codecNum2dr 100) (boardState [])) (·.res.value) = some (.nat 7) := by decide
/-- C16. -/
theorem test_codec_num2cmode : next? (exec (.codecNum2cmode 3) (boardState [])) (·.res.value) =
    some (.nat 1) := by decide
/-- C16. -/
theorem test_codec_num2cpol : next? (exec (.codecNum2cpol 0) (boardState [])) (·.res.value) = some (.nat 0) := by decide
/-- C16. -/
theorem test_codec_num2clat : next? (exec (.codecNum2clat 1) (boardState [])) (·.res.value) = some (.nat 1) := by decide
/-- C17. -/
theorem test_codec_num2cque : next? (exec (.codecNum2cque 4) (boardState [])) (·.res.value) = some (.nat 3) := by decide
/-- C18. -/
theorem test_codec_latency : next? (exec (.codecLatency 4) (boardState [])) (·.res.value) =
    some (.nat 10500) := by decide
/-- C21. -/
theorem test_codec_fsr : next? (exec (.codecFsr 6) (boardState [])) (·.res.value) = some (.nat 256) := by decide
/-- C25. -/
theorem test_codec_volts_negative : next? (exec (.codecVolts 0x8000 1) (boardState [])) (·.res.value) =
    some (.volts (-16777216 / 4095875)) := by decide +kernel
/-- C29. -/
theorem test_codec_volts_full : next? (exec (.codecVolts 32767 7) (boardState [])) (·.res.value) =
    some (.volts (32 / 125)) := by decide +kernel
/-- C31. -/
theorem test_codec_ctrlbyte : next? (exec (.codecCtrlbyte 0b1010 7) (boardState [])) (·.res.value) =
    some (.byte 0x57) := by decide
/-- C34. -/
theorem test_codec_sig : next? (exec .codecSig (boardState [])) (·.res.value) =
    some (.bytes [0x00, 0x42, 0x50, 0x49, 0x43, 0x4F, 0x00, 0x07, 0xEA, 0x0B, 0x0B]) := by decide

/-! ### ADC operations -/

/-- A15. -/
theorem test_adc_config : next? (exec (.adcConfig 7 9 1 1 1 9) (boardState [])) State.adc =
    some { AdcState.reset with pga := 5, dr := 7, cmode := 1, cpol := 1, clat := 1, cque := 3 } := by decide
/-- A1. -/
theorem test_adc_start :
    next? (exec (.adcStart 4 1) (boardState [answer 3 [], tick])) (fun t => (t.adc.deadline, t.res.value, traffic t)) =
      some (10600, .word 0xC583, [.write .bus0 0x48 [0x01, 0xC5, 0x83] false 3]) := by decide
/-- A19, on the base variant: the comparator bits are COMP_DEFAULT. -/
theorem test_adc_start_base_variant :
    next? (exec (.adcStart 9 5) { boardState [answer 3 [], tick] with
      params := { board with adcHasComparator := false }
      adc := { AdcState.reset with cmode := 1 } }) (·.res.value) = some (.word 0xF583) := by decide
/-- A6: the count is signed and kept. -/
theorem test_adc_complete :
    next? (exec (.adcComplete 4) (convertingState [tick, answer 1 [], answer 2 [0xC5, 0x83], answer 1 [],
      answer 2 [0xFF, 0xFE]])) (fun t => (t.adc.phase, t.adc.lastRead, t.res.value, t.env.clock)) =
      some (.ready, 0xFFFE, .count 0xFFFE, 11000) := by decide
/-- A8: a wrong channel is a mismatch although the status is not done. -/
theorem test_adc_complete_mismatch :
    next? (exec (.adcComplete 4) (convertingState [tick, answer 1 [], answer 2 [0x55, 0x83]]))
      (fun t => (t.adc.phase, t.res.err, t.adc.lastRead)) = some (.error, .mismatch, 0) := by decide
/-- X6: a mismatch in the second attempt, after the deadline moved. -/
theorem test_adc_complete_second_mismatch :
    next? (exec (.adcComplete 4) (convertingState [tick, answer 1 [], answer 2 [0x45, 0x83], tick, tick, answer 1 [],
      answer 2 [0x55, 0x83]])) (fun t => (t.adc.phase, t.res.err, t.adc.deadline, (traffic t).length)) =
      some (.error, .mismatch, 21300, 4) := by decide
/-- A22: a cache whose deadline has passed does not answer. -/
theorem test_adc_readc_refreshes :
    next? (exec (.adcReadc 4 false) { boardState [tick, answer 3 [], tick, tick, answer 1 [], answer 2 [0xC5, 0x83],
        answer 1 [], answer 2 [0x00, 0x64], tick] with
      adc := { AdcState.reset with phase := .ready, deadline := 10600, lastRead := 0xFFFE, cacheValid := true,
                                   cacheChannel := 4 }
      env := { State.reset.env with clock := 11000, script := [tick, answer 3 [], tick, tick, answer 1 [],
        answer 2 [0xC5, 0x83], answer 1 [], answer 2 [0x00, 0x64], tick] } })
      (fun t => (t.adc.deadline, t.res.value, (traffic t).length)) = some (32500, .count 100, 5) := by decide
/-- A21. -/
theorem test_adc_status : next? (exec .adcStatus (boardState [])) (·.res.value) =
    some (.status { phase := .idle, deadline := 0, lastRead := 0, cacheValid := false, cacheChannel := 0, pga := 2,
                    dr := 4, cmode := 0, cpol := 0, clat := 0, cque := 3 }) := by decide

/-! ### DAC operations -/

/-- D1. -/
theorem test_dac_clamp : next? (exec (.dacClamp 4096) (boardState [])) (·.res.value) = some (.data12 4095) := by decide
/-- D1. -/
theorem test_dac_clamp_negative : next? (exec (.dacClamp (-1)) (boardState [])) (·.res.value) =
    some (.data12 0) := by decide
/-- D6. -/
theorem test_dac_frame : next? (exec (.dacFrame 2 1 0 0 0x123) (boardState [])) (·.res.value) =
    some (.bytes [0x44, 0x21, 0x23]) := by decide
/-- D7. -/
theorem test_dac_frame_sentinel : next? (exec (.dacFrame 4 0 0 0 0) (boardState [])) (·.res.err) =
    some .badOperand := by decide
/-- D8. -/
theorem test_dac_setcfg : next? (exec (.dacSetcfg 1 0 1 1) (boardState [])) (·.dac.cfg.toList) =
    some [⟨0, 0, 0⟩, ⟨0, 1, 1⟩, ⟨0, 0, 0⟩, ⟨0, 0, 0⟩] := by decide
/-- D11: the frame carries the channel's stored record. -/
theorem test_dac_write : next? (exec (.dacWrite 1 2048) ((boardState [answer 3 []]).setDacChannel 1 ⟨0, 1, 1⟩)) traffic =
    some [.write .bus1 0x60 [0x42, 0x98, 0x00] false 3] := by decide
/-- D12: a short count fails. -/
theorem test_dac_write_short : next? (exec (.dacWrite 3 5000) (boardState [answer 2 []]))
    (fun t => (t.res.err, traffic t)) = some (.bus, [.write .bus1 0x60 [0x46, 0x0F, 0xFF] false 2]) := by decide

/-! ### EEPROM operations -/

/-- E2. -/
theorem test_ee_read : next? (exec (.eeRead 100) (boardState [answer 2 [], answer 32 [0xAB]]))
    (fun t => (t.pbuf.lookup 0, t.pbuf.lookup 31, t.history.getLast?)) =
    some (some 0xAB, some 0, some (.write .bus0 0x50 [0x0C, 0x80] true 2)) := by decide
/-- E4: the address was not taken, and PBUF is unchanged. -/
theorem test_ee_read_no_address :
    next? (exec (.eeRead 5) ((boardState [answer (-1) []]).setPbuf countingPbuf)) (fun t => (t.res.err, t.pbuf)) =
      some (.bus, countingPbuf) := by decide
/-- E10. -/
theorem test_ee_write :
    next? (exec (.eeWrite 3) ((boardState [tick, answer 0 [], answer 34 [], tick]).setPbuf countingPbuf))
      (fun t => (t.ee.readyTime, traffic t)) =
      some (5200, [.write .bus0 0x50 [] false 0,
        .write .bus0 0x50 ([0x00, 0x60] ++ (List.range 32).map (BitVec.ofNat 8)) false 34]) := by decide
/-- E14: the id is checked before the unwritten PBUF. -/
theorem test_ee_write_id : next? (exec (.eeWrite 200) (boardState [])) (·.res.err) = some .badOperand := by decide
/-- E9. -/
theorem test_ee_ready :
    next? (exec (.eeReady 3) (boardState [tick, answer (-1) [], tick, tick, answer 0 []]))
      (fun t => (t.ee.readyTime, t.res.ok, t.env.clock)) = some (5100, true, 5200) := by decide
/-- E6. -/
theorem test_ee_ready_zero : next? (exec (.eeReady 0) (boardState [])) (fun t => (t.res.err, traffic t)) =
    some (.notReady, []) := by decide
/-- E18, E21: the padding is not compared. -/
theorem test_ee_checksig : next? (exec .eeChecksig (boardState [answer 2 [], answer 32
    [0x00, 0x42, 0x50, 0x49, 0x43, 0x4F, 0x00, 0x07, 0xEA, 0x0B, 0x0B, 0xEE]])) State.res =
    some { ok := true, err := .none, value := .bool true } := by decide
/-- E20: the last signature byte differs. -/
theorem test_ee_checksig_mismatch : next? (exec .eeChecksig (boardState [answer 2 [], answer 32
    [0x00, 0x42, 0x50, 0x49, 0x43, 0x4F, 0x00, 0x07, 0xEA, 0x0B, 0x0A]])) State.res =
    some { ok := false, err := .sigMismatch, value := .bool false } := by decide
/-- The beginning of E15: two pages, ascending, the same content. -/
theorem test_ee_format_pages :
    ((boardState [tick, answer 0 [], answer 34 [], tick, tick, answer 0 [], answer 34 [], tick]).formatPages
      (List.replicate 32 0xA5) 0 [0, 1]).2.ee.readyTime = 10400 := by decide
/-- The page EE.INIT gives the signature page: the signature and 21 bytes. -/
theorem test_ee_init_signature_page : (((boardState [answer 0 [0x77]]).initPage 127).1.take 12,
    ((boardState [answer 0 [0x77]]).initPage 127).1.length) =
    ([0x00, 0x42, 0x50, 0x49, 0x43, 0x4F, 0x00, 0x07, 0xEA, 0x0B, 0x0B, 0x77], 32) := by decide

/-! ### Witnesses: for each statement with hypotheses, a state and operands that meet them, and for a statement of
several clauses one for each clause -/

/-- A state whose script begins with `ds` awaits them. -/
theorem awaits_script (s : State) (ds rest : List Draw) (h : s.env.devices = none) (hs : s.env.script = ds ++ rest) :
    s.Awaits ds :=
  ⟨h, fun k hk => by simp [State.drawAt, hs, List.getElem?_append_left hk, List.getElem?_eq_getElem hk]⟩

theorem boardState_awaits (ds : List Draw) : (boardState ds).Awaits ds := awaits_script _ ds [] rfl (by simp [boardState])

theorem convertingState_awaits (ds : List Draw) : (convertingState ds).Awaits ds :=
  awaits_script _ ds [] rfl (by simp [convertingState])

theorem steadyState_awaits (ds : List Draw) : (steadyState ds).Awaits ds :=
  awaits_script _ ds [] rfl (by simp [steadyState, convertingState])

/-- The board with moves of the host to make. -/
def hostState (moves : List HostMove) : State := { boardState [] with port := moves }

theorem witness_StepPerformsPresentedOperation :
    (hostState [.present ⟨0x14, []⟩]).faultMark = false ∧
    (hostState [.present ⟨0x14, []⟩]).port = .present ⟨0x14, []⟩ :: [] ∧ decode ⟨0x14, []⟩ = .instr .adcStatus :=
  ⟨rfl, rfl, rfl⟩

/-- The whole of PBUF, and one byte too many. -/
theorem witness_HostAccessesPbuf :
    ((hostState [.memWrite 0 (List.replicate 32 7)]).port = .memWrite 0 (List.replicate 32 7) :: [] ∧
      0 + (List.replicate 32 (7 : Byte)).length ≤ 32) ∧
    ((hostState [.memWrite 31 [1, 2]]).port = .memWrite 31 [1, 2] :: [] ∧ 32 < 31 + [(1 : Byte), 2].length) :=
  ⟨⟨rfl, by decide⟩, rfl, by decide⟩

theorem witness_EncodeInvertsDecode : decode ⟨0x23, [3, -1]⟩ = .instr (.dacWrite 3 (-1)) := rfl

/-- The ends of the reserved ranges; a listed code with a record that fits, and with one that does not. -/
theorem witness_ReservedCodesRefused :
    ((0x15 : Byte).toNat = 0x15 ∧ (0x24 : Byte).toNat = 0x24 ∧ (0x36 : Byte).toNat = 0x36 ∧ (0xFF : Byte).toNat = 0xFF) ∧
    (∀ op : Operation, (hostState [.present op]).port = .present op :: [] ∧ (hostState [.present op]).faultMark = false) ∧
    recordFits (formatKinds .fch) [4] = true ∧ recordFits (formatKinds .fch) [-4] = false :=
  ⟨by decide, fun _ => ⟨rfl, rfl⟩, rfl, rfl⟩

/-- The largest legal gain, and the smallest that is not. -/
theorem witness_PackAndUnpackRoundTrip :
    (⟨1, 7, 5, 1, 7, 1, 1, 1, 3⟩ : ConfigFields).pga.toNat ≤ 5 ∧ 5 < (0x8C83 : Half).toNat / 2 ^ 9 % 8 := by decide

/-- The stated parameters, and the last two rates. -/
theorem witness_LatencyFollowsRate : (boardState []).params.Stated ∧ board.Stated ∧ (6 : Fin 8) < 7 :=
  ⟨board_stated true false true, board_stated true false true, by decide⟩

theorem witness_FullScaleRangeTable : (boardState []).params.Stated := board_stated true false true

theorem witness_VoltsAreExact : (boardState []).params.countsFull ≠ 0 ∧ (boardState []).params.Stated :=
  ⟨by decide, board_stated true false true⟩

theorem witness_DacClampKeepsRange : (boardState []).params.dacMax < 4096 ∧ (boardState []).params.Stated :=
  ⟨by decide, board_stated true false true⟩

theorem witness_DacFrameLayout :
    3 < 4 ∧ 4 ≤ 4 ∧ (boardState []).params.dacMax < 4096 ∧ (boardState []).params.Stated :=
  ⟨by decide, by decide, by decide, board_stated true false true⟩

theorem witness_DacSetcfgStoresRecord : 3 = (3 : Fin 4).val ∧ 4 ≤ 4 := by decide

theorem witness_DacWriteSendsFrame :
    (3 = (3 : Fin 4).val ∧ (boardState [answer 3 []]).Awaits [answer 3 []] ∧
      (boardState [answer 2 []]).Awaits [answer 2 []] ∧ (boardState [answer 3 []]).params.dacMax < 4096 ∧
      (boardState [answer 3 []]).params.Stated) ∧ 4 ≤ 4 :=
  ⟨⟨rfl, boardState_awaits _, boardState_awaits _, by decide, board_stated true false true⟩, by decide⟩

theorem witness_AdcConfigSetsShadow :
    (boardState []).adc.phase ≠ .converting ∧ (convertingState []).adc.phase = .converting := by decide

theorem witness_AdcStartOutcomes :
    (convertingState []).adc.phase = .converting ∧
    ((boardState [answer 3 [], tick]).adc.phase ≠ .converting ∧
      (boardState [answer 3 [], tick]).Awaits [answer 3 [], tick] ∧ 3 ≤ (answer 3 []).result) ∧
    ((boardState [answer 2 []]).adc.phase ≠ .converting ∧
      (boardState [answer 2 []]).Awaits [answer 2 []] ∧ (answer 2 []).result < 3) :=
  ⟨rfl, ⟨by decide, boardState_awaits _, by decide⟩, by decide, boardState_awaits _, by decide⟩

/-- A readback of channel 4, done. -/
def doneReadback : Draw := answer 2 [0xC5, 0x83]

/-- A readback of channel 4, not done. -/
def pendingReadback : Draw := answer 2 [0x45, 0x83]

theorem doneReadback_reads : ReadsBack doneReadback (min 4 7) 1 := by unfold ReadsBack; decide

theorem pendingReadback_reads : ReadsBack pendingReadback (min 4 7) 0 := by unfold ReadsBack; decide

theorem witness_AdcCompleteReadsConversion :
    let ds := [tick, answer 1 [], doneReadback, answer 1 [], answer 2 [0x80, 0x00]]
    (convertingState ds).adc.phase = .converting ∧ 0 < (convertingState ds).params.adcCompleteTries ∧
    (convertingState ds).Awaits ds ∧ 1 ≤ (answer 1 []).result ∧
    2 ≤ doneReadback.result ∧ ReadsBack doneReadback (min 4 7) 1 ∧ 2 ≤ (answer 2 [0x80, 0x00]).result :=
  ⟨rfl, by decide, convertingState_awaits _, by decide, by decide, doneReadback_reads, by decide⟩

/-- A readback of channel 5, not done. -/
def otherReadback : Draw := answer 2 [0x55, 0x83]

theorem otherReadback_reads : ReadsBack otherReadback 5 0 := by unfold ReadsBack; decide

/-- The first attempt of a completion that reads channel 4, not done, for the board with and without
`ADC_RETRY_REARM`. -/
def firstPending (rearm : Bool) : List Draw :=
  firstAttempt { board with adcRetryRearm := rearm } tick (answer 1 []) pendingReadback tick

/-- At the first attempt, and at the second (vector X6) with and without `ADC_RETRY_REARM`. -/
theorem witness_AdcCompleteChannelMismatch :
    1 ≤ (answer 1 []).result ∧ 2 ≤ pendingReadback.result ∧ 5 ≠ min 4 7 ∧ 4 ≠ min 5 7 ∧
    (let ds := [tick, answer 1 [], doneReadback]
     (convertingState ds).adc.phase = .converting ∧ 0 < (convertingState ds).params.adcCompleteTries ∧
     (convertingState ds).Awaits ds ∧ 2 ≤ doneReadback.result ∧ ReadsBack doneReadback 4 1) ∧
    (let ds := firstPending true ++ [tick, answer 1 [], otherReadback]
     1 < (convertingState ds).params.adcCompleteTries ∧ (convertingState ds).Awaits ds) ∧
    (let ds := firstPending false ++ [tick, answer 1 [], otherReadback]
     1 < (steadyState ds).params.adcCompleteTries ∧ (steadyState ds).Awaits ds ∧
     (steadyState ds).adc.phase = .converting) ∧
    ReadsBack pendingReadback (min 4 7) 0 ∧ 2 ≤ otherReadback.result ∧ ReadsBack otherReadback 5 0 :=
  ⟨by decide, by decide, by decide, by decide,
    ⟨rfl, by decide, convertingState_awaits _, by decide, doneReadback_reads⟩,
    ⟨by decide, convertingState_awaits _⟩, ⟨by decide, steadyState_awaits _, rfl⟩,
    pendingReadback_reads, by decide, otherReadback_reads⟩

theorem witness_AdcCompleteBusFailure :
    ((convertingState [tick, answer 0 []]).Awaits [tick, answer 0 []] ∧ (answer 0 []).result < 1) ∧
    ((convertingState [tick, answer 1 [], answer 1 []]).Awaits [tick, answer 1 [], answer 1 []] ∧
      1 ≤ (answer 1 []).result ∧ (answer 1 []).result < 2) ∧
    ((convertingState [tick, answer 1 [], doneReadback, answer 0 []]).Awaits
        [tick, answer 1 [], doneReadback, answer 0 []] ∧
      2 ≤ doneReadback.result ∧ ReadsBack doneReadback (min 4 7) 1 ∧ (answer 0 []).result < 1) ∧
    ((convertingState [tick, answer 1 [], doneReadback, answer 1 [], answer 1 []]).Awaits
        [tick, answer 1 [], doneReadback, answer 1 [], answer 1 []] ∧ (answer 1 []).result < 2) ∧
    (convertingState []).adc.phase = .converting ∧ 0 < (convertingState []).params.adcCompleteTries :=
  ⟨⟨convertingState_awaits _, by decide⟩, ⟨convertingState_awaits _, by decide, by decide⟩,
    ⟨convertingState_awaits _, by decide, doneReadback_reads, by decide⟩, ⟨convertingState_awaits _, by decide⟩, rfl,
    by decide⟩

/-- The same in the second attempt, with and without `ADC_RETRY_REARM`, for each transaction that may fall short. -/
theorem witness_AdcCompleteBusFailure_second :
    1 < (convertingState []).params.adcCompleteTries ∧ 1 ≤ (answer 1 []).result ∧ 2 ≤ pendingReadback.result ∧
    ReadsBack pendingReadback (min 4 7) 0 ∧ (answer 0 []).result < 1 ∧ (answer 1 []).result < 2 ∧
    2 ≤ doneReadback.result ∧ ReadsBack doneReadback (min 4 7) 1 ∧
    ∀ rest ∈ [[tick, answer 0 []], [tick, answer 1 [], answer 1 []], [tick, answer 1 [], doneReadback, answer 0 []],
        [tick, answer 1 [], doneReadback, answer 1 [], answer 1 []]],
      (convertingState (firstPending true ++ rest)).Awaits (firstPending true ++ rest) ∧
      (steadyState (firstPending false ++ rest)).Awaits (firstPending false ++ rest) :=
  ⟨by decide, by decide, by decide, pendingReadback_reads, by decide, by decide, by decide, doneReadback_reads,
    fun _ _ => ⟨convertingState_awaits _, steadyState_awaits _⟩⟩

/-- With `ADC_RETRY_REARM` and without it, and with no attempt allowed. -/
theorem witness_AdcCompletePendingAfterTwoAttempts :
    (let ds := firstPending true ++ [tick, answer 1 [], pendingReadback]
     (convertingState ds).adc.phase = .converting ∧ (convertingState ds).params.adcCompleteTries = 2 ∧
     (convertingState ds).Awaits ds) ∧
    (let ds := firstPending false ++ [tick, answer 1 [], pendingReadback]
     (steadyState ds).adc.phase = .converting ∧ (steadyState ds).params.adcCompleteTries = 2 ∧
     (steadyState ds).Awaits ds) ∧
    1 ≤ (answer 1 []).result ∧ 2 ≤ pendingReadback.result ∧ ReadsBack pendingReadback (min 4 7) 0 ∧
    { convertingState [] with params := { board with adcCompleteTries := 0 } }.params.adcCompleteTries = 0 :=
  ⟨⟨rfl, rfl, convertingState_awaits _⟩, ⟨rfl, rfl, steadyState_awaits _⟩, by decide, by decide, pendingReadback_reads,
    rfl⟩

/-- With `ADC_RETRY_REARM` and without it. -/
theorem witness_AdcCompleteSecondAttempt :
    (let ds := firstPending true ++ [tick, answer 1 [], doneReadback, answer 1 [], answer 2 [0xFF, 0xFE]]
     (convertingState ds).adc.phase = .converting ∧ 1 < (convertingState ds).params.adcCompleteTries ∧
     (convertingState ds).Awaits ds) ∧
    (let ds := firstPending false ++ [tick, answer 1 [], doneReadback, answer 1 [], answer 2 [0xFF, 0xFE]]
     (steadyState ds).adc.phase = .converting ∧ 1 < (steadyState ds).params.adcCompleteTries ∧
     (steadyState ds).Awaits ds) ∧
    1 ≤ (answer 1 []).result ∧ 2 ≤ pendingReadback.result ∧ ReadsBack pendingReadback (min 4 7) 0 ∧
    2 ≤ doneReadback.result ∧ ReadsBack doneReadback (min 4 7) 1 ∧ 2 ≤ (answer 2 [0xFF, 0xFE]).result :=
  ⟨⟨rfl, by decide, convertingState_awaits _⟩, ⟨rfl, by decide, steadyState_awaits _⟩, by decide, by decide,
    pendingReadback_reads, by decide, doneReadback_reads, by decide⟩

theorem witness_AdcCompleteNotConverting : (boardState []).adc.phase ≠ .converting := by decide

/-- The board with a cached count of channel 4, its deadline as given. -/
def cachedState (deadline : Timestamp) (ds : List Draw) : State :=
  { boardState ds with
    adc := { AdcState.reset with phase := .ready, deadline := deadline, lastRead := 100, cacheValid := true,
                                 cacheChannel := 4 } }

theorem cachedState_awaits (deadline : Timestamp) (ds : List Draw) : (cachedState deadline ds).Awaits ds :=
  awaits_script _ ds [] rfl (by simp [cachedState, boardState])

/-- One µs before the deadline. -/
theorem witness_AdcReadcCacheHit :
    (cachedState 1 [tick]).adc.cacheValid = true ∧ (cachedState 1 [tick]).adc.cacheChannel.toNat = min 4 7 ∧
    (cachedState 1 [tick]).env.clock.toNat + ((cachedState 1 [tick]).drawAt 0).advance <
      (cachedState 1 [tick]).adc.deadline.toNat := by decide

/-- At the deadline: a start that the bus takes (vector A22), and one that it does not. -/
theorem witness_AdcReadcExpiredCacheConverts :
    (let ds := [tick, answer 3 [], tick, tick, answer 1 [], doneReadback, answer 1 [], answer 2 [0x00, 0x64], tick]
     (cachedState 0 ds).Awaits ds ∧ 0 < (cachedState 0 ds).params.adcCompleteTries ∧ 3 ≤ (answer 3 []).result ∧
     1 ≤ (answer 1 []).result ∧ 2 ≤ doneReadback.result ∧ ReadsBack doneReadback (min 4 7) 1 ∧
     2 ≤ (answer 2 [0x00, 0x64]).result) ∧
    (cachedState 0 [tick, answer 2 []]).adc.cacheValid = true ∧
    (cachedState 0 [tick, answer 2 []]).adc.cacheChannel.toNat = min 4 7 ∧
    (cachedState 0 [tick, answer 2 []]).adc.phase ≠ .converting ∧
    (cachedState 0 [tick, answer 2 []]).Awaits [tick, answer 2 []] ∧
    (cachedState 0 [tick, answer 2 []]).adc.deadline.toNat ≤
      (cachedState 0 [tick, answer 2 []]).env.clock.toNat + tick.advance ∧
    (answer 2 []).result < 3 :=
  ⟨⟨cachedState_awaits _ _, by decide, by decide, by decide, by decide, doneReadback_reads, by decide⟩,
    rfl, rfl, by decide, cachedState_awaits _ _, by decide, by decide⟩

/-- A forced refresh, no valid cache, and another channel. -/
theorem witness_AdcReadcConverts :
    let ds := [answer 3 [], tick, tick, answer 1 [], doneReadback, answer 1 [], answer 2 [0x00, 0x64], tick]
    (true = true ∨ (boardState ds).adc.cacheValid = false ∨ (cachedState 9 ds).adc.cacheChannel.toNat ≠ min 3 7) ∧
    (boardState ds).adc.cacheValid = false ∧ (cachedState 9 ds).adc.cacheChannel.toNat ≠ min 3 7 ∧
    (boardState ds).adc.phase ≠ .converting ∧ 0 < (boardState ds).params.adcCompleteTries ∧
    (boardState ds).Awaits ds ∧ 3 ≤ (answer 3 []).result ∧
    1 ≤ (answer 1 []).result ∧ 2 ≤ doneReadback.result ∧ ReadsBack doneReadback (min 4 7) 1 ∧
    2 ≤ (answer 2 [0x00, 0x64]).result :=
  ⟨Or.inl rfl, rfl, by decide, by decide, by decide, boardState_awaits _, by decide, by decide, by decide,
    doneReadback_reads, by decide⟩

theorem witness_AdcReadcResumesPending :
    let ds := [tick, answer 1 [], doneReadback, answer 1 [], answer 2 [0x00, 0x01], tick]
    (convertingState ds).adc.cacheValid = false ∧ (convertingState ds).adc.phase = .converting ∧
    0 < (convertingState ds).params.adcCompleteTries ∧ (convertingState ds).Awaits ds ∧ 1 ≤ (answer 1 []).result ∧
    2 ≤ doneReadback.result ∧ ReadsBack doneReadback (min 4 7) 1 ∧ 2 ≤ (answer 2 [0x00, 0x01]).result :=
  ⟨rfl, rfl, by decide, convertingState_awaits _, by decide, by decide, doneReadback_reads, by decide⟩

/-- One run for each kind of operation the table speaks of, and one for another, each with its new events. -/
theorem witness_PhaseMovesOnlyByTable :
    (∃ t evs, exec (.adcStart 4 1) (boardState []) = .next t ∧ t.history = evs ++ (boardState []).history) ∧
    (∃ t evs, exec (.adcComplete 4) (convertingState []) = .next t ∧ t.history = evs ++ (convertingState []).history) ∧
    (∃ t evs, exec (.adcReadc 4 true) (boardState []) = .next t ∧ t.history = evs ++ (boardState []).history) ∧
    (∃ t evs, exec .adcStatus (boardState []) = .next t ∧ t.history = evs ++ (boardState []).history) ∧
    ¬IsAdcStart .adcStatus ∧ ¬IsAdcComplete .adcStatus ∧ ¬IsAdcReadc .adcStatus :=
  ⟨⟨_, _, rfl, (List.append_nil _).symm⟩, ⟨_, _, rfl, (List.append_nil _).symm⟩,
    ⟨_, _, rfl, (List.append_nil _).symm⟩, ⟨_, _, rfl, (List.append_nil _).symm⟩,
    by simp [IsAdcStart], by simp [IsAdcComplete], by simp [IsAdcReadc]⟩

/-- A completion that mismatches. -/
theorem witness_FailedCompletionKeepsCount :
    ∃ t, exec (.adcComplete 5) (convertingState [tick, answer 1 [], doneReadback]) = .next t ∧ t.res.ok = false :=
  ⟨_, rfl, by decide⟩

theorem witness_PageIdCheckedFirst :
    (boardState []).params.eePages ≤ 128 ∧ (boardState []).params.Stated ∧ 128 ≤ 128 :=
  ⟨by decide, board_stated true false true, by decide⟩

theorem witness_EeReadFillsPbuf :
    ((boardState []).params.eePages ≤ 128 ∧ 127 < (boardState []).params.eePages ∧
      ([] : List Draw).length = (if (boardState []).params.readWaitsForReady then 1 else 0)) ∧
    ((boardState [answer 2 [], answer 32 []]).Awaits ([] ++ [answer 2 [], answer 32 []]) ∧ 2 ≤ (answer 2 []).result ∧
      32 ≤ (answer 32 []).result) ∧
    ((boardState [answer 1 []]).Awaits ([] ++ [answer 1 []]) ∧ (answer 1 []).result < 2) ∧
    ((boardState [answer 2 [], answer 31 [], tick]).Awaits ([] ++ [answer 2 [], answer 31 [], tick]) ∧
      (answer 31 []).result < 32) :=
  ⟨by decide, ⟨boardState_awaits _, by decide, by decide⟩, ⟨boardState_awaits _, by decide⟩, boardState_awaits _,
    by decide⟩

/-- The wait before a read, where the parameter asks for it. -/
theorem witness_EeReadFillsPbuf_waiting :
    [tick].length = (if { board with readWaitsForReady := true }.readWaitsForReady then 1 else 0) := rfl

/-- A probe that failed, as the environment chooses its round. -/
def failedRound : Draw × Draw × Draw := (tick, answer (-1) [], tick)

/-- Success at the first probe and at the third, and the last of three probes failing. -/
theorem witness_ReadyProbeOutcomes :
    ((boardState (roundDraws [] ++ [tick, answer 0 []])).Awaits (roundDraws [] ++ [tick, answer 0 []]) ∧
      ([] : List (Draw × Draw × Draw)).length < 1 ∧ 0 ≤ (answer 0 []).result) ∧
    (let fails := [failedRound, failedRound]
     (boardState (roundDraws fails ++ [tick, answer 0 []])).Awaits (roundDraws fails ++ [tick, answer 0 []]) ∧
     (∀ f ∈ fails, f.2.1.result < 0) ∧ fails.length < 3) ∧
    (let fails := [failedRound, failedRound]
     (boardState (roundDraws fails ++ [tick, answer (-1) []])).Awaits (roundDraws fails ++ [tick, answer (-1) []]) ∧
     fails.length + 1 = 3 ∧ (answer (-1) []).result < 0) :=
  ⟨⟨boardState_awaits _, by decide, by decide⟩, ⟨boardState_awaits _, by decide, by decide⟩, boardState_awaits _, rfl,
    by decide⟩

/-- After no failed probe, and after two; the write taken, and not taken. -/
theorem witness_EeWriteSendsPage :
    127 < (boardState []).params.eePages ∧
    (∀ a (h : a < 32), ((boardState []).setPbuf (Memory.writeBytes [] 0 (List.replicate 32 7))).pbuf.lookup a =
      some (Vector.replicate 32 (7 : Byte))[a]) ∧
    0 ≤ (answer 0 []).result ∧ 34 ≤ (answer 34 []).result ∧ (answer 33 []).result < 34 ∧
    ∀ fails ∈ [[], [failedRound, failedRound]],
      fails.length < (boardState []).params.eeWriteTries ∧ (∀ f ∈ fails, f.2.1.result < 0) ∧
      (boardState (roundDraws fails ++ [tick, answer 0 [], answer 34 [], tick])).Awaits
        (roundDraws fails ++ [tick, answer 0 [], answer 34 [], tick]) ∧
      (boardState (roundDraws fails ++ [tick, answer 0 [], answer 33 []])).Awaits
        (roundDraws fails ++ [tick, answer 0 [], answer 33 []]) := by
  refine ⟨by decide, by decide, by decide, by decide, by decide, fun fails h => ?_⟩
  refine ⟨?_, ?_, boardState_awaits _, boardState_awaits _⟩
  · revert fails; decide
  · revert fails; decide

/-- Three probes that fail. -/
theorem witness_EeWriteGateExhausted :
    ∃ t, exec (.eeWrite 3) ((boardState [tick, answer (-1) [], tick, tick, answer (-1) [], tick, tick,
      answer (-1) []]).setPbuf countingPbuf) = .next t ∧ t.res.err = .notReady :=
  ⟨_, rfl, by decide⟩

/-- X5: PBUF with its last byte unwritten; and operations that do not fault. -/
theorem witness_FaultOnlyOnUnwrittenBuffer :
    ((∃ id, Instr.eeWrite 127 = .eeWrite id ∧ id < (boardState []).params.eePages) ∧
      ∃ a, a < 32 ∧ ((boardState []).setPbuf (Memory.writeBytes [] 0 (List.replicate 31 7))).pbuf.lookup a = none) ∧
    (¬∃ id, Instr.adcStatus = .eeWrite id ∧ id < (boardState []).params.eePages) ∧
    { boardState [] with faultMark := true }.faultMark = true :=
  ⟨⟨⟨127, rfl, by decide⟩, 31, by decide, by decide⟩, by simp, rfl⟩

/-- A step that goes on, where the host presents a reserved code. -/
theorem witness_MarksAreKept : ∃ t, step (hostState [.present ⟨0xFF, []⟩]) = .next t ∧ t.refusalMark = true :=
  ⟨_, rfl, rfl⟩

/-- The stated parameters, which are also what the statement about EE.INIT asks for. -/
theorem witness_InitGoesThroughAllPages : (boardState []).params.Stated := board_stated true false true

theorem witness_FormatGoesThroughAllPages : (boardState []).params.eePages ≤ 128 := by decide

/-- 513 choices, four for each page and one for the padding before the last, each of them taken as a whole page write.
-/
theorem witness_InitWritesEveryPage :
    let ds := List.replicate 513 (answer 34 [])
    (boardState ds).params.Stated ∧ (boardState ds).Awaits ds ∧ ds.length = 513 ∧ ds[508]? = some (answer 34 []) ∧
    ∀ d ∈ ds, 34 ≤ d.result := by
  refine ⟨board_stated true false true, boardState_awaits _, List.length_replicate,
    (List.getElem?_replicate ..).trans (if_pos (by omega)), fun d hd => ?_⟩
  rw [List.eq_of_mem_replicate hd]
  decide

theorem witness_ChecksigComparesSignature :
    (boardState []).params.Stated ∧
    ([] : List Draw).length = (if (boardState []).params.readWaitsForReady then 1 else 0) ∧
    ((boardState [answer 2 [], answer 32 []]).Awaits ([] ++ [answer 2 [], answer 32 []]) ∧ 2 ≤ (answer 2 []).result ∧
      32 ≤ (answer 32 []).result) ∧
    ((boardState [answer 2 [], answer 31 []]).Awaits ([] ++ [answer 2 [], answer 31 []]) ∧
      (answer 31 []).result < 32) ∧
    ((boardState [answer 1 [], tick]).Awaits ([] ++ [answer 1 [], tick]) ∧ (answer 1 []).result < 2) :=
  ⟨board_stated true false true, rfl, ⟨boardState_awaits _, by decide, by decide⟩, ⟨boardState_awaits _, by decide⟩,
    boardState_awaits _, by decide⟩

/-- The board with the reference devices on its bus, the EEPROM blank, every draw 0xFF. -/
def deviceState : State :=
  { boardState (List.replicate 520 ⟨0, Vector.replicate 32 0xFF, 100⟩) with
    env := { clock := 0, script := List.replicate 520 ⟨0, Vector.replicate 32 0xFF, 100⟩, drawCount := 0,
             devices := some { adc := RefAdc.powerOn, dac := { input := Vector.replicate 4 default },
                               eeprom := { mem := [], ptr := 0, busyUntil := 0 } } } }

theorem deviceState_inv : deviceState.Inv where
  paramsStated := board_stated true false true
  pgaLegal := by show 2 ≤ 5; decide
  cacheQuiet := by intro h; cases h
  resultConsistent := ⟨fun _ => rfl, fun _ => rfl⟩
  memoriesWf := ⟨rfl, by rintro v ⟨⟩; rfl⟩

/-- Whether an operation succeeds and a check after it is not cut off by the bus. -/
def checkFollows (i : Instr) (s : State) : Bool :=
  match exec i s with
  | .next t => t.res.ok && (next? (exec .eeChecksig t) fun u => decide (u.res.err ≠ .bus)) == some true
  | _ => false

set_option maxRecDepth 100000 in
/-- A whole EE.INIT, and a whole EE.FORMAT, that succeed, each with a check after it that the bus lets through. -/
theorem witness_SignatureIsIdempotent :
    deviceState.Inv ∧ deviceState.env.devices.isSome = true ∧
    ¬(deviceState.params.eeBus = deviceState.params.adcBus ∧ eeAddr deviceState.params = deviceState.params.adcAddr) ∧
    checkFollows .eeInit deviceState = true ∧ checkFollows .eeFormat deviceState = true :=
  ⟨deviceState_inv, rfl, by decide, by decide +kernel, by decide +kernel⟩

theorem boardState_inv (moves : List HostMove) : (hostState moves).Inv where
  paramsStated := board_stated true false true
  pgaLegal := by show 2 ≤ 5; decide
  cacheQuiet := by intro h; cases h
  resultConsistent := by simp [State.ResultConsistent, hostState, boardState, State.reset]
  memoriesWf := ⟨rfl, by intro v h; cases h⟩

/-- A state with the invariant in which the host configures the ADC; the premise of the other statements about a step
too. -/
theorem witness_StepKeepsInvariant :
    (hostState [.present ⟨0x10, [7, 7, 0, 0, 0, 3]⟩]).Inv ∧
    ∃ t, step (hostState [.present ⟨0x10, [7, 7, 0, 0, 0, 3]⟩]) = .next t ∧ t.adc.pga = 5 :=
  ⟨boardState_inv _, _, rfl, rfl⟩

theorem witness_ClockNeverGoesBack : ∃ t, step (hostState [.present ⟨0x32, [1]⟩]) = .next t := ⟨_, rfl⟩

theorem witness_OperationsEndWithOneResult : ∃ t, exec (.dacWrite 0 0) (boardState [answer 3 []]) = .next t := ⟨_, rfl⟩

theorem witness_UnitsWriteOnlyTheirState : ∃ t, exec (.eeRead 0) (boardState []) = .next t := ⟨_, rfl⟩

/-- A failure of each kind of value: 0, false, and a mask. -/
theorem witness_ReportedErrorKinds :
    (next? (exec (.dacWrite 4 0) (boardState [])) State.res = some ⟨false, .badOperand, .nat 0⟩) ∧
    (next? (exec .eeChecksig (boardState [answer (-1) []])) State.res = some ⟨false, .bus, .bool false⟩) ∧
    endBulk (1, boardState []) = (boardState []).raise .partialFail (.mask 1) := by
  refine ⟨by decide, by decide, rfl⟩

/-- A history without a transaction, and a step that reads a page. -/
theorem witness_HoldIsOnlyBeforeRead :
    HoldIsFollowed (hostState [.present ⟨0x30, [0]⟩]).history ∧
    ∃ t, step (hostState [.present ⟨0x30, [0]⟩]) = .next t := by
  refine ⟨?_, _, rfl⟩
  intro newer older bus addr bytes r h
  cases newer <;> cases h

theorem witness_TransactionsAreLawful : ∃ t, step (hostState [.present ⟨0x12, [4]⟩]) = .next t := ⟨_, rfl⟩

/-- An operation of each kind of bound, and its new events: the ADC's, the DAC's, the gate's, a page's, all the pages',
and one without the bus; and a completion that ends PENDING. -/
theorem witness_TransactionsAreBounded :
    (∀ i ∈ [.adcStart 4 1, .adcReadc 4 true, .dacWrite 0 0, .eeReady 0, .eeWrite 128, .eeRead 128, .eeChecksig,
        .codecSig],
      ∃ t evs, exec i (boardState []) = .next t ∧ t.history = evs ++ (boardState []).history) ∧
    (∃ t evs, exec .eeFormat deviceState = .next t ∧ t.history = evs ++ deviceState.history) ∧
    IsAdcComplete (.adcComplete 4) ∧
    (∃ t evs, exec (.adcComplete 4) (convertingState (firstPending true ++ [tick, answer 1 [], pendingReadback])) =
        .next t ∧ t.history = evs ++ [] ∧ t.res.err = .pending) := by
  refine ⟨?_, ⟨_, _, rfl, (List.append_nil _).symm⟩, ⟨4, rfl⟩, _, _, rfl, (List.append_nil _).symm, by decide⟩
  simp only [List.mem_cons, List.not_mem_nil, or_false, forall_eq_or_imp, forall_eq]
  exact ⟨⟨_, _, rfl, (List.append_nil _).symm⟩, ⟨_, _, rfl, (List.append_nil _).symm⟩,
    ⟨_, _, rfl, (List.append_nil _).symm⟩, ⟨_, _, rfl, (List.append_nil _).symm⟩,
    ⟨_, _, rfl, (List.append_nil _).symm⟩, ⟨_, _, rfl, (List.append_nil _).symm⟩,
    ⟨_, _, rfl, (List.append_nil _).symm⟩, _, _, rfl, (List.append_nil _).symm⟩

end Sys2Proof.Machine
end

/-! PROOF. The opcode map and the host port (spec/30_encoding.md R92, R93; spec/60_exceptions.md R267): which codes are
reserved, what the decoder makes of a presented operation, and how a step answers one that is no operation. -/

namespace Sys2Proof.Machine

/-! ### Operand records -/

theorem recordFits_nil_iff {record : List Int} : recordFits [] record = true ↔ record = [] := by
  cases record <;> simp [recordFits]

theorem recordFits_cons_iff {k : OperandKind} {ks : List OperandKind} {record : List Int} :
    recordFits (k :: ks) record = true ↔
      ∃ x rest, record = x :: rest ∧ k.admits x = true ∧ recordFits ks rest = true := by
  cases record <;> simp [recordFits]

/-! ### The opcode map -/

/-- The three ranges of R93's reserved codes. -/
def IsReservedCode (code : Byte) : Prop :=
  (0x15 ≤ code.toNat ∧ code.toNat ≤ 0x1F) ∨ (0x24 ≤ code.toNat ∧ code.toNat ≤ 0x2F) ∨ 0x36 ≤ code.toNat

/-- R92 and R93 divide the codes: the map leaves out the reserved ones, and no others. -/
theorem codeFormat_eq_none_iff (code : Byte) : codeFormat code = none ↔ IsReservedCode code := by
  unfold codeFormat IsReservedCode
  split
  case h_32 => simp only [imp_false, true_iff] at *; omega
  all_goals simp only [reduceCtorEq, false_iff]; omega

/-- A listed code with a record of its format spells an operation: `codeInstr` has an arm of the format's length for
each code that `codeFormat` lists. -/
theorem exists_codeInstr_of_recordFits {code : Byte} {f : Format} {record : List Int}
    (hf : codeFormat code = some f) (hfit : recordFits (formatKinds f) record = true) :
    ∃ i, codeInstr code record = some i := by
  unfold codeFormat at hf
  split at hf
  case h_32 => cases hf
  all_goals
    rename_i hcode
    cases hf
    repeat obtain ⟨x, record, rfl, -, hfit⟩ := recordFits_cons_iff.1 hfit
    obtain rfl := recordFits_nil_iff.1 hfit
    exact ⟨_, by simp only [codeInstr, hcode]; rfl⟩

/-! ### The decoder -/

theorem decode_of_codeFormat_none {op : Operation} (h : codeFormat op.code = none) : decode op = .reserved := by
  simp only [decode, h]

theorem exists_decode_of_recordFits {op : Operation} {f : Format} (hf : codeFormat op.code = some f)
    (hfit : recordFits (formatKinds f) op.record = true) : ∃ i, decode op = .instr i := by
  obtain ⟨i, hi⟩ := exists_codeInstr_of_recordFits hf hfit
  exact ⟨i, by simp only [decode, hf, hfit, hi, if_true]⟩

theorem decode_of_not_recordFits {op : Operation} {f : Format} (hf : codeFormat op.code = some f)
    (hfit : recordFits (formatKinds f) op.record = false) : decode op = .wrongShape := by
  simp [decode, hf, hfit]

/-! ### A step on a presented operation -/

section Presented

variable {s : State} {op : Operation} {rest : List HostMove}

/-- A step of a block without the fault mark performs the operation presented, its move taken from the port. -/
theorem step_present (hmark : s.faultMark = false) (hport : s.port = .present op :: rest) :
    step s = State.perform { s with port := rest } op := by
  simp [step, State.takeMove, State.afterMove, hmark, hport]

theorem step_of_decode_reserved (hmark : s.faultMark = false) (hport : s.port = .present op :: rest)
    (hd : decode op = .reserved) : step s = .next (State.refuseCode { s with port := rest }) := by
  simp only [step_present hmark hport, State.perform, hd]

theorem step_of_decode_wrongShape (hmark : s.faultMark = false) (hport : s.port = .present op :: rest)
    (hd : decode op = .wrongShape) : step s = .refused .recordShape := by
  simp only [step_present hmark hport, State.perform, hd]

end Presented

/-- Settles O9: the codes without a format are the reserved ones, and for the others the record decides between an
operation and the refusal. -/
theorem reservedCodesRefused : Obligations.ReservedCodesRefused := by
  intro s op rest hmark hport
  constructor
  · intro hreserved
    have hnone : codeFormat op.code = none := (codeFormat_eq_none_iff op.code).2 hreserved
    exact step_of_decode_reserved hmark hport (decode_of_codeFormat_none hnone)
  · intro hlisted
    have hsome : codeFormat op.code ≠ none := fun h => hlisted ((codeFormat_eq_none_iff op.code).1 h)
    obtain ⟨f, hf⟩ := Option.ne_none_iff_exists'.1 hsome
    refine ⟨f, hf, ?_⟩
    cases hfit : recordFits (formatKinds f) op.record with
    | true => exact .inl ⟨rfl, exists_decode_of_recordFits hf hfit⟩
    | false => exact .inr ⟨rfl, step_of_decode_wrongShape hmark hport (decode_of_not_recordFits hf hfit)⟩

end Sys2Proof.Machine

/-! PROOF. The codec unit (spec/40_codec.md R130 to R150): what each of its operations is decoded from and what it
answers, as numbers. -/

namespace Sys2Proof.Machine

/-! ### Decoding an operation's own record -/

/-- An operation that its own code and record spell is what they decode to: its record always fits the format. -/
theorem decode_encode_of_codeInstr {i : Instr} (hfits : Laws.OperandRecordFits.Statement i)
    (hspells : codeInstr (instrCode i) (instrRecord i) = some i) : decode (encode i) = .instr i := by
  obtain ⟨f, hf, hfit⟩ := hfits
  simp only [decode, encode, hf, hfit, hspells, if_true]

theorem decode_codecUnpack (w : Half) : decode ⟨0x01, [w.toNat]⟩ = .instr (.codecUnpack w) := by
  refine decode_encode_of_codeInstr (i := .codecUnpack w) (Laws.OperandRecordFits.codecUnpack w) ?_
  change some (Instr.codecUnpack (BitVec.ofInt 16 w.toNat)) = _
  rw [BitVec.ofInt_natCast, BitVec.ofNat_toNat, BitVec.setWidth_eq]

theorem decode_codecVolts (counts : Half) (pga : Nat) :
    decode ⟨0x0D, [counts.toInt, pga]⟩ = .instr (.codecVolts counts pga) := by
  refine decode_encode_of_codeInstr (Laws.OperandRecordFits.codecVolts counts pga) ?_
  change some (Instr.codecVolts (BitVec.ofInt 16 counts.toInt) pga) = _
  rw [BitVec.ofInt_toInt]

theorem decode_codecCtrlbyte (nibble : BitVec 4) (cs : BitVec 3) :
    decode ⟨0x0E, [nibble.toNat, cs.toNat]⟩ = .instr (.codecCtrlbyte nibble cs) := by
  refine decode_encode_of_codeInstr (Laws.OperandRecordFits.codecCtrlbyte nibble cs) ?_
  change some (Instr.codecCtrlbyte (BitVec.ofInt 4 nibble.toNat) (BitVec.ofInt 3 cs.toNat)) = _
  simp only [BitVec.ofInt_natCast, BitVec.ofNat_toNat, BitVec.setWidth_eq]

/-! ### What an operation that only returns leaves -/

theorem State.next_ret_eq (s : State) (v : Value) :
    (.next (s.ret v) : Host.Outcome State Fault Refusal) =
      .next (withResult s { ok := true, err := .none, value := v }) := rfl

/-! ### Saturated operands as numbers (R130) -/

/-- A saturated operand keeps its number in a field wide enough for the largest enumerator. -/
theorem toNat_ofNat_saturate {w max : Nat} (hwide : max < 2 ^ w) (n : Nat) :
    (BitVec.ofNat w (saturate max n)).toNat = min n max := by
  rw [BitVec.toNat_ofNat, saturate]
  exact Nat.mod_eq_of_lt (Nat.lt_of_le_of_lt (Nat.min_le_right n max) hwide)

theorem muxOf_toNat (n : Nat) : (muxOf n).toNat = min n 7 := toNat_ofNat_saturate (by decide) n

theorem modeOf_toNat (n : Nat) : (modeOf n).toNat = min n 1 := toNat_ofNat_saturate (by decide) n

theorem drOf_toNat (n : Nat) : (drOf n).toNat = min n 7 := toNat_ofNat_saturate (by decide) n

/-! ### Bit fields side by side -/

theorem toNat_append_eq_add {m n : Nat} (x : BitVec m) (y : BitVec n) :
    (x ++ y).toNat = x.toNat * 2 ^ n + y.toNat := by
  rw [BitVec.toNat_append, ← Nat.shiftLeft_add_eq_or_of_lt y.isLt, Nat.shiftLeft_eq]

/-- A field shifted above another one is the two side by side, both cut to the word's width. -/
theorem shiftLeft_or_eq_setWidth_append {w m n : Nat} (x : BitVec m) (y : BitVec n) :
    x.setWidth w <<< n ||| y.setWidth w = (x ++ y).setWidth w := by
  ext i hi
  simp only [BitVec.getElem_or, BitVec.getElem_shiftLeft, BitVec.getElem_setWidth, BitVec.getLsbD_append]
  by_cases hin : i < n
  · simp [hin]
  · simp [hin, BitVec.getLsbD_of_ge y i (by omega)]

theorem toNat_extractLsb'_eq_mod {w : Nat} (x : BitVec w) (start len : Nat) :
    (x.extractLsb' start len).toNat = x.toNat / 2 ^ start % 2 ^ len := by
  rw [BitVec.extractLsb'_toNat, Nat.shiftRight_eq_div_pow]

/-! ### The configuration word (R96, R131, R132) -/

theorem packFields_eq_append (f : ConfigFields) :
    packFields f = f.os ++ (f.mux ++ (f.pga ++ (f.mode ++ (f.dr ++ (f.cmode ++ (f.cpol ++ (f.clat ++ f.cque))))))) := by
  simp only [packFields, BitVec.or_assoc]
  iterate 8 rw [shiftLeft_or_eq_setWidth_append]
  exact BitVec.setWidth_eq _

theorem packFields_toNat (f : ConfigFields) :
    (packFields f).toNat = f.os.toNat * 2 ^ 15 + f.mux.toNat * 2 ^ 12 + f.pga.toNat * 2 ^ 9 + f.mode.toNat * 2 ^ 8 +
      f.dr.toNat * 2 ^ 5 + f.cmode.toNat * 2 ^ 4 + f.cpol.toNat * 2 ^ 3 + f.clat.toNat * 2 ^ 2 + f.cque.toNat := by
  simp only [packFields_eq_append, toNat_append_eq_add]
  ring

/-- The top bit needs no reduction: nothing stands above it. -/
theorem unpackWord_os_toNat (w : Half) : (unpackWord w).os.toNat = w.toNat / 2 ^ 15 := by
  have hw := w.isLt
  rw [unpackWord, toNat_extractLsb'_eq_mod]
  omega

theorem unpackWord_pga_toNat (w : Half) : (unpackWord w).pga.toNat = min (w.toNat / 2 ^ 9 % 8) 5 := by
  rw [unpackWord, numberToPga, toNat_ofNat_saturate (by decide), toNat_extractLsb'_eq_mod]
  rfl

theorem unpackWord_cque_toNat (w : Half) : (unpackWord w).cque.toNat = w.toNat % 4 := by
  rw [unpackWord, toNat_extractLsb'_eq_mod, Nat.pow_zero, Nat.div_one]
  rfl

/-! ### The tables keyed by an enumerator (P18, P19) -/

theorem latencyUs_getElem? (p : Params) (dr : BitVec 3) : p.latencyUs[dr.toNat]? = some (latencyOf p dr) :=
  Vector.getElem?_eq_getElem dr.isLt

theorem fsrMv_getElem? (p : Params) (pga : Fin 6) : p.fsrMv[pga.val]? = some (fsrOf p pga) :=
  Vector.getElem?_eq_getElem pga.isLt

/-- The rates of R101's table. -/
theorem sampleRate_listed (dr : BitVec 3) :
    [8, 16, 32, 64, 128, 250, 475, 860][dr.toNat]? = some (sampleRate dr.toNat) := by
  revert dr
  decide

/-- R150's formula gives the stated latencies. -/
theorem latencyOf_stated {p : Params} (hp : p.Stated) (dr : BitVec 3) :
    latencyOf p dr = 1500 * ((860 + sampleRate dr.toNat - 1) / sampleRate dr.toNat) := by
  rw [← Option.some_inj, ← latencyUs_getElem?, hp.latencyUs]
  revert dr
  decide

/-- R149: a faster rate has a smaller stated latency. -/
theorem latencyUs_lt_of_lt {p : Params} (hp : p.Stated) {a b : Fin 8} (hab : a < b) :
    p.latencyUs[b] < p.latencyUs[a] := by
  rw [hp.latencyUs]
  revert a b
  decide

/-- The ranges of R99's table. -/
theorem fsrOf_stated {p : Params} (hp : p.Stated) (pga : Fin 6) :
    [6144, 4096, 2048, 1024, 512, 256][pga.val]? = some (fsrOf p pga) := by
  rw [← fsrMv_getElem?, hp.fsrMv]
  revert pga
  decide

/-- The volts of a count, brought to millivolts and full counts, are exact (R144). -/
theorem volts_mul_countsFull {p : Params} (hfull : p.countsFull ≠ 0) (counts : Rat) (pga : Fin 6) :
    counts * voltsPerCount p pga * (p.countsFull : Rat) * 1000 = counts * (fsrOf p pga : Rat) := by
  have hfull' : (p.countsFull : Rat) ≠ 0 := Nat.cast_ne_zero.2 hfull
  rw [voltsPerCount]
  field_simp

/-! ### The device address and the signature (R110, R112) -/

theorem deviceAddr_eq_append (nibble : BitVec 4) (cs : BitVec 3) : deviceAddr nibble cs = nibble ++ cs := by
  rw [deviceAddr, shiftLeft_or_eq_setWidth_append]
  exact BitVec.setWidth_eq _

theorem deviceAddr_toNat (nibble : BitVec 4) (cs : BitVec 3) :
    (deviceAddr nibble cs).toNat = nibble.toNat * 8 + cs.toNat := by
  rw [deviceAddr_eq_append]
  exact toNat_append_eq_add nibble cs

theorem toList_eq_ofFn {α : Type} {n : Nat} (v : Vector α n) : v.toList = List.ofFn fun i : Fin n => v[i] := by
  rw [← Vector.toList_ofFn]
  simp

theorem signature_eq (p : Params) :
    signature p = [(0x00 : Byte), p.sigPattern[0], p.sigPattern[1], p.sigPattern[2], p.sigPattern[3], p.sigPattern[4],
      0x00, p.buildDate[0], p.buildDate[1], p.buildDate[2], p.buildDate[3]] := by
  rw [signature, toList_eq_ofFn, toList_eq_ofFn]
  rfl

/-! ### The statements -/

/-- Settles O11: the operands keep their saturated numbers in the fields, and the fields stand side by side. -/
theorem packComposesWord : Obligations.PackComposesWord := by
  intro os mux pga mode dr cmode cpol clat cque s
  refine ⟨decode_encode_of_codeInstr (Laws.OperandRecordFits.codecPack os mux pga mode dr cmode cpol clat cque) rfl,
    packFields (fieldsOfNumbers os mux pga mode dr cmode cpol clat cque), ?_, s.next_ret_eq _⟩
  simp (disch := decide) only [packFields_toNat, fieldsOfNumbers, muxOf_toNat, modeOf_toNat, drOf_toNat, numberToOs,
    numberToPga, numberToCmode, numberToCpol, numberToClat, numberToCque, toNat_ofNat_saturate]

/-- Settles O12: each field is a stretch of the word's bits, the gain's saturated. -/
theorem unpackSplitsWord : Obligations.UnpackSplitsWord := by
  intro w s
  have hbits (start len : Nat) := toNat_extractLsb'_eq_mod w start len
  exact ⟨decode_codecUnpack w, unpackWord w, unpackWord_os_toNat w, hbits 12 3, unpackWord_pga_toNat w, hbits 8 1,
    hbits 5 3, hbits 4 1, hbits 3 1, hbits 2 1, unpackWord_cque_toNat w, s.next_ret_eq _⟩

/-- Settles O14: the table is read at the saturated code, and its stated entries follow the rates. -/
theorem latencyFollowsRate : Obligations.LatencyFollowsRate := by
  refine ⟨fun n s => ?_, fun p hp a b => latencyUs_lt_of_lt hp⟩
  refine ⟨decode_encode_of_codeInstr (Laws.OperandRecordFits.codecLatency n) rfl, latencyOf s.params (drOf n), ?_⟩
  rw [← drOf_toNat n]
  exact ⟨latencyUs_getElem? _ _, fun hp => ⟨_, sampleRate_listed _, latencyOf_stated hp _⟩,
    s.next_ret_eq _⟩

/-- Settles O16: the volts are the count times the entry of the saturated gain code, divided exactly. -/
theorem voltsAreExact : Obligations.VoltsAreExact := by
  intro counts pga s
  have hexact (hfull : s.params.countsFull ≠ 0) := volts_mul_countsFull hfull (counts.toInt : Rat) (pgaOf pga)
  refine ⟨decode_codecVolts counts pga, fsrOf s.params (pgaOf pga), _, fsrMv_getElem? _ (pgaOf pga), hexact, fun hp => ?_,
    s.next_ret_eq _⟩
  rw [hp.countsFull] at hexact
  exact ⟨fsrOf_stated hp (pgaOf pga), hexact (by decide)⟩

/-- Settles O17: the two fields stand side by side in seven bits, so bit 7 of the byte lies above them. -/
theorem ctrlbyteComposesAddress : Obligations.CtrlbyteComposesAddress := by
  intro nibble cs s
  refine ⟨decode_codecCtrlbyte nibble cs, (deviceAddr nibble cs).setWidth 8, ?_, ?_,
    s.next_ret_eq _⟩
  · rw [BitVec.toNat_setWidth_of_le (by decide), deviceAddr_toNat]
  · rw [BitVec.getLsbD_setWidth, BitVec.getLsbD_of_ge _ _ (Nat.le_refl 7), Bool.and_false]

/-- Settles O10: each conversion is `saturate` at its own largest enumerator. -/
theorem numberConversionsSaturate : Obligations.NumberConversionsSaturate := by
  intro n s
  exact ⟨⟨decode_encode_of_codeInstr (Laws.OperandRecordFits.codecNum2os n) rfl, s.next_ret_eq _⟩,
    ⟨decode_encode_of_codeInstr (Laws.OperandRecordFits.codecNum2mux n) rfl, s.next_ret_eq _⟩,
    ⟨decode_encode_of_codeInstr (Laws.OperandRecordFits.codecNum2pga n) rfl, s.next_ret_eq _⟩,
    ⟨decode_encode_of_codeInstr (Laws.OperandRecordFits.codecNum2mode n) rfl, s.next_ret_eq _⟩,
    ⟨decode_encode_of_codeInstr (Laws.OperandRecordFits.codecNum2dr n) rfl, s.next_ret_eq _⟩,
    ⟨decode_encode_of_codeInstr (Laws.OperandRecordFits.codecNum2cmode n) rfl, s.next_ret_eq _⟩,
    ⟨decode_encode_of_codeInstr (Laws.OperandRecordFits.codecNum2cpol n) rfl, s.next_ret_eq _⟩,
    ⟨decode_encode_of_codeInstr (Laws.OperandRecordFits.codecNum2clat n) rfl, s.next_ret_eq _⟩,
    ⟨decode_encode_of_codeInstr (Laws.OperandRecordFits.codecNum2cque n) rfl, s.next_ret_eq _⟩⟩

/-- Settles O15: the table is read at the saturated code. -/
theorem fullScaleRangeTable : Obligations.FullScaleRangeTable := by
  intro n s
  exact ⟨decode_encode_of_codeInstr (Laws.OperandRecordFits.codecFsr n) rfl, fsrOf s.params (pgaOf n),
    fsrMv_getElem? _ (pgaOf n), fun hp => fsrOf_stated hp (pgaOf n), s.next_ret_eq _⟩

/-- Settles O18: the stored tables, listed entry by entry between the two zero bytes. -/
theorem signatureComposition : Obligations.SignatureComposition := by
  intro s
  exact ⟨decode_encode_of_codeInstr Laws.OperandRecordFits.codecSig rfl, signature s.params, signature_eq s.params,
    s.next_ret_eq _⟩

end Sys2Proof.Machine

/-! PROOF. The configuration, the start and the status of the ADC unit (spec/41_adc.md R172, R174, R175, R177): the word
ADC.START writes, and what each way its one transaction can go leaves behind. -/

namespace Sys2Proof.Machine

/-! ### What a refused operation leaves -/

theorem State.next_raise_eq (s : State) (e : ErrKind) (v : Value) :
    (.next (s.raise e v) : Host.Outcome State Fault Refusal) =
      .next (withResult s { ok := false, err := e, value := v }) := rfl

/-! ### The start word (R174) -/

/-- The fields of ADC.START's configuration word: the comparator's come from the shadow fields, or on the base variant
from `COMP_DEFAULT`. -/
def State.startFields (s : State) (c : BitVec 3) (md : BitVec 1) : ConfigFields where
  os := 1
  mux := c
  pga := s.adc.pga
  mode := md
  dr := s.adc.dr
  cmode := if s.params.adcHasComparator then s.adc.cmode else s.params.compDefault.extractLsb' 4 1
  cpol := if s.params.adcHasComparator then s.adc.cpol else s.params.compDefault.extractLsb' 3 1
  clat := if s.params.adcHasComparator then s.adc.clat else s.params.compDefault.extractLsb' 2 1
  cque := if s.params.adcHasComparator then s.adc.cque else s.params.compDefault.extractLsb' 0 2

/-- The four comparator fields of a word of five bits, put side by side again. -/
theorem append_comparator_fields (x : BitVec 5) :
    x.extractLsb' 4 1 ++ (x.extractLsb' 3 1 ++ (x.extractLsb' 2 1 ++ x.extractLsb' 0 2)) = x := by
  revert x
  decide

theorem State.comparatorBits_eq_append (s : State) (c : BitVec 3) (md : BitVec 1) :
    s.comparatorBits = (s.startFields c md).cmode ++
      ((s.startFields c md).cpol ++ ((s.startFields c md).clat ++ (s.startFields c md).cque)) := by
  cases hvariant : s.params.adcHasComparator with
  | true =>
    simp only [State.comparatorBits, State.startFields, hvariant, if_true, BitVec.or_assoc]
    iterate 3 rw [shiftLeft_or_eq_setWidth_append]
    exact BitVec.setWidth_eq _
  | false =>
    simp only [State.comparatorBits, State.startFields, hvariant, Bool.false_eq_true, if_false]
    exact (append_comparator_fields _).symm

theorem State.startWord_eq_append (s : State) (c : BitVec 3) (md : BitVec 1) :
    s.startWord c md = 1#1 ++ (c ++ (s.adc.pga ++ (md ++ (s.adc.dr ++ s.comparatorBits)))) := by
  have hstart : (1 <<< 15 : Half) = (1#1).setWidth 16 <<< 15 := rfl
  simp only [State.startWord, BitVec.or_assoc, hstart]
  iterate 5 rw [shiftLeft_or_eq_setWidth_append]
  exact BitVec.setWidth_eq _

theorem State.startWord_eq_packFields (s : State) (c : BitVec 3) (md : BitVec 1) :
    s.startWord c md = packFields (s.startFields c md) := by
  rw [State.startWord_eq_append, packFields_eq_append, s.comparatorBits_eq_append c md]
  rfl

theorem State.comparatorBits_toNat (s : State) :
    s.comparatorBits.toNat = if s.params.adcHasComparator then
      s.adc.cmode.toNat * 2 ^ 4 + s.adc.cpol.toNat * 2 ^ 3 + s.adc.clat.toNat * 2 ^ 2 + s.adc.cque.toNat
    else s.params.compDefault.toNat := by
  cases hvariant : s.params.adcHasComparator with
  | true =>
    simp only [s.comparatorBits_eq_append 0 0, State.startFields, hvariant, if_true, toNat_append_eq_add]
    ring
  | false => simp only [State.comparatorBits, hvariant, Bool.false_eq_true, if_false]

theorem State.startWord_toNat (s : State) (c : BitVec 3) (md : BitVec 1) :
    (s.startWord c md).toNat = 2 ^ 15 + c.toNat * 2 ^ 12 + s.adc.pga.toNat * 2 ^ 9 + md.toNat * 2 ^ 8 +
      s.adc.dr.toNat * 2 ^ 5 + s.comparatorBits.toNat := by
  simp only [State.startWord_eq_append, toNat_append_eq_add, BitVec.toNat_ofNat]
  ring

/-! ### The steps of ADC.START under the unrestricted oracle (R170, R172) -/

section Oracle

variable {s t : State} {k : Nat} {now : Timestamp}

/-- A write of the configuration register: one choice and one event, and success where that choice takes all three
bytes. -/
theorem State.adcWriteReg_after (h : t.env = envAfter s k now) (ho : s.env.devices = none) (v : Half) :
    ∃ now' : Timestamp, now.toNat ≤ now'.toNat ∧
      t.adcWriteReg 0b01 v = (decide (transferResult (s.drawAt k).result 3 = 3),
        { t with
          env := envAfter s (k + 1) now'
          history := .write t.params.adcBus t.params.adcAddr (0x01 :: bigEndianBytes v.toNat) false
            (transferResult (s.drawAt k).result 3) :: t.history }) := by
  obtain ⟨now', hnow, hw⟩ :=
    State.busWrite_after h ho t.params.adcBus t.params.adcAddr (0x01 :: bigEndianBytes v.toNat) false
  refine ⟨now', hnow, ?_⟩
  rw [State.adcWriteReg, bytesOfHalf_eq]
  exact congrArg (fun w => (decide (w.1 = 3), w.2)) hw

/-- A deadline set from the clock: one choice, the clock then not before its last reading. -/
theorem State.armDeadline_after (h : t.env = envAfter s k now) :
    ∃ now' : Timestamp, now.toNat ≤ now'.toNat ∧
      t.armDeadline = { t with
        adc := { t.adc with deadline := timeAfter now' (latencyOf t.params t.adc.dr) }
        env := envAfter s (k + 1) now' } := by
  refine ⟨clockForward now (s.drawAt k).advance, clockForward_le _ _, ?_⟩
  rw [State.armDeadline, State.readClock_after h]
  rfl

/-- A start that the bus takes: the write and a clock reading, from which the deadline is counted. -/
theorem State.startSteps_taken (h : t.env = envAfter s k now) (ho : s.env.devices = none)
    (hfree : t.adc.phase ≠ .converting) (htaken : 3 ≤ (s.drawAt k).result) (c : BitVec 3) (md : BitVec 1) :
    ∃ now' : Timestamp, now.toNat ≤ now'.toNat ∧
      t.startSteps c md = (.ok (.word (t.startWord c md)),
        { t with
          adc := { t.adc with phase := .converting, cacheValid := false,
                              deadline := timeAfter now' (latencyOf t.params t.adc.dr) }
          env := envAfter s (k + 2) now'
          history := .write t.params.adcBus t.params.adcAddr (0x01 :: bigEndianBytes (t.startWord c md).toNat) false 3
            :: t.history }) := by
  obtain ⟨written, hnow, hwrite⟩ := State.adcWriteReg_after (t := t.dropCache) h ho (t.startWord c md)
  rw [show transferResult (s.drawAt k).result 3 = 3 from transferResult_of_ge (len := 3) htaken] at hwrite
  obtain ⟨now', hread, harm⟩ := State.armDeadline_after (s := s) (k := k + 1) (now := written)
    (t := (t.dropCache.adcWriteReg 0b01 (t.startWord c md)).2) (by rw [hwrite])
  refine ⟨now', Nat.le_trans hnow hread, ?_⟩
  rw [hwrite] at harm
  simp only [State.startSteps, if_neg hfree, hwrite, decide_true, if_true, harm]
  rfl

/-- A start that the bus does not take: the write alone. -/
theorem State.startSteps_notTaken (h : t.env = envAfter s k now) (ho : s.env.devices = none)
    (hfree : t.adc.phase ≠ .converting) (hshort : (s.drawAt k).result < 3) (c : BitVec 3) (md : BitVec 1) :
    ∃ (now' : Timestamp) (r : Int), now.toNat ≤ now'.toNat ∧ r < 3 ∧
      t.startSteps c md = (.error .bus,
        { t with
          adc := { t.adc with phase := .error, cacheValid := false }
          env := envAfter s (k + 1) now'
          history := .write t.params.adcBus t.params.adcAddr (0x01 :: bigEndianBytes (t.startWord c md).toNat) false r
            :: t.history }) := by
  obtain ⟨written, hnow, hwrite⟩ := State.adcWriteReg_after (t := t.dropCache) h ho (t.startWord c md)
  have hr : transferResult (s.drawAt k).result 3 < 3 := transferResult_of_lt (len := 3) hshort
  refine ⟨written, _, hnow, hr, ?_⟩
  simp only [State.startSteps, if_neg hfree, hwrite, decide_eq_true_eq, if_neg (Int.ne_of_lt hr)]
  rfl

end Oracle

/-- A start while a conversion is pending changes nothing. -/
theorem State.startSteps_converting {s : State} (hbusy : s.adc.phase = .converting) (c : BitVec 3) (md : BitVec 1) :
    s.startSteps c md = (.error .busy, s) := by
  rw [State.startSteps, if_pos hbusy]

/-- ADC.START ends with what its steps give. -/
theorem exec_adcStart_of_steps {s t : State} {ch mode : Nat} {r : Except ErrKind Value}
    (h : s.startSteps (muxOf ch) (modeOf mode) = (r, t)) : exec (.adcStart ch mode) s = .next (t.conclude r) :=
  congrArg (fun p => Host.Outcome.next (endOperation p)) h

/-! ### ADC.CONFIG (R175) -/

theorem exec_adcConfig_converting {s : State} (hbusy : s.adc.phase = .converting) (pga dr cmode cpol clat cque : Nat) :
    exec (.adcConfig pga dr cmode cpol clat cque) s = .next (s.raise .busy (.nat 0)) :=
  if_pos hbusy

/-- `S.adc` with the six shadow fields set from numbers and the cache dropped. -/
def AdcState.configured (a : AdcState) (pga dr cmode cpol clat cque : Nat) : AdcState :=
  { a with
    pga := BitVec.ofNat 3 (numberToPga pga), dr := drOf dr, cmode := BitVec.ofNat 1 (numberToCmode cmode)
    cpol := BitVec.ofNat 1 (numberToCpol cpol), clat := BitVec.ofNat 1 (numberToClat clat)
    cque := BitVec.ofNat 2 (numberToCque cque), cacheValid := false }

theorem exec_adcConfig_not_converting {s : State} (hfree : s.adc.phase ≠ .converting)
    (pga dr cmode cpol clat cque : Nat) :
    exec (.adcConfig pga dr cmode cpol clat cque) s =
      .next (State.ret { s with adc := s.adc.configured pga dr cmode cpol clat cque } (.nat 0)) :=
  if_neg hfree

/-! ### The statements -/

/-- Settles O26: the pending conversion decides the refusal, and otherwise the transaction's choice the ending. -/
theorem adcStartOutcomes : Obligations.AdcStartOutcomes := by
  intro ch mode s
  have henv : s.env = envAfter s 0 s.env.clock := (envAfter_zero s).symm
  refine ⟨decode_encode_of_codeInstr (Laws.OperandRecordFits.adcStart ch mode) rfl, fun hbusy => ?_,
    fun d e hfree hawaits htaken => ?_, fun d hfree hawaits hshort => ?_⟩
  · exact exec_adcStart_of_steps (State.startSteps_converting hbusy _ _)
  · have hd : s.drawAt 0 = d := hawaits.draw 0 (Nat.zero_lt_succ _)
    obtain ⟨t, ht, hsteps⟩ := State.startSteps_taken henv hawaits.oracle hfree (hd ▸ htaken) (muxOf ch) (modeOf mode)
    exact ⟨_, t, rfl, ht, exec_adcStart_of_steps hsteps⟩
  · have hd : s.drawAt 0 = d := hawaits.draw 0 (Nat.zero_lt_succ _)
    obtain ⟨t, r, ht, hr, hsteps⟩ :=
      State.startSteps_notTaken henv hawaits.oracle hfree (hd ▸ hshort) (muxOf ch) (modeOf mode)
    exact ⟨_, t, r, rfl, ht, hr, exec_adcStart_of_steps hsteps⟩

/-- Settles O25: the fields stand side by side in the word, the comparator's five bits lowest. -/
theorem startWordLayout : Obligations.StartWordLayout := by
  intro s c md
  refine ⟨?_, s.startWord_eq_packFields c md⟩
  rw [State.startWord_toNat, State.comparatorBits_toNat]

/-- Settles O24: outside CONVERTING the six fields are the saturated operands and the rest of `S.adc` but the cache's
validity stays. -/
theorem adcConfigSetsShadow : Obligations.AdcConfigSetsShadow := by
  intro pga dr cmode cpol clat cque s
  refine ⟨decode_encode_of_codeInstr (Laws.OperandRecordFits.adcConfig pga dr cmode cpol clat cque) rfl,
    fun hfree => ?_, fun hbusy => ?_⟩
  · exact ⟨s.adc.configured pga dr cmode cpol clat cque, toNat_ofNat_saturate (by decide) pga, drOf_toNat dr,
      toNat_ofNat_saturate (by decide) cmode, toNat_ofNat_saturate (by decide) cpol,
      toNat_ofNat_saturate (by decide) clat, toNat_ofNat_saturate (by decide) cque, rfl, rfl, rfl, rfl, rfl,
      exec_adcConfig_not_converting hfree ..⟩
  · rw [exec_adcConfig_converting hbusy, State.next_raise_eq]

/-- Settles O37: the operation returns `S.adc` whole and does nothing else. -/
theorem adcStatusReportsState : Obligations.AdcStatusReportsState :=
  ⟨fun s => ⟨decode_encode_of_codeInstr Laws.OperandRecordFits.adcStatus rfl, s.next_ret_eq _⟩, rfl, rfl, rfl, rfl⟩

end Sys2Proof.Machine

/-! PROOF. The DAC unit (spec/42_dac.md R200 to R203): the clamped count and the frame's bytes as numbers, and what
each operation leaves for a channel and for the sentinel. -/

namespace Sys2Proof.Machine

/-! ### The operands (R105, R114, R200) -/

theorem dacChannelOf_val (c : Fin 4) : dacChannelOf c.val = some c := by
  revert c
  decide

theorem dacChannelOf_of_ge {ch : Nat} (h : 4 ≤ ch) : dacChannelOf ch = none :=
  dif_neg (by rw [numberToDacch, saturate, Nat.min_eq_right h]; decide)

theorem dacChannelRecord_pd_toNat (pd gain vref : Nat) : (dacChannelRecord pd gain vref).pd.toNat = min pd 3 :=
  toNat_ofNat_saturate (by decide) pd

theorem dacChannelRecord_gain_toNat (pd gain vref : Nat) : (dacChannelRecord pd gain vref).gain.toNat = min gain 1 :=
  toNat_ofNat_saturate (by decide) gain

theorem dacChannelRecord_vref_toNat (pd gain vref : Nat) : (dacChannelRecord pd gain vref).vref.toNat = min vref 1 :=
  toNat_ofNat_saturate (by decide) vref

/-- A largest count of twelve bits bounds the clamped count, so the twelve bits keep it whole. -/
theorem clamp12_toNat {p : Params} (hmax : p.dacMax < 4096) (x : Int) :
    ((clamp12 p x).toNat : Int) = min (max x 0) p.dacMax := by
  rw [clamp12, BitVec.toNat_ofInt]
  omega

theorem clamp12_toNat_of_stated {p : Params} (hp : p.Stated) (x : Int) :
    ((clamp12 p x).toNat : Int) = min (max x 0) 4095 := by
  have hmax : p.dacMax = 4095 := hp.dacMax
  rw [clamp12_toNat (by omega), hmax]
  rfl

theorem min_max_zero_eq_ite {m : Int} (hm : 0 ≤ m) (x : Int) :
    min (max x 0) m = if x < 0 then 0 else if m < x then m else x := by
  split_ifs <;> omega

/-! ### The multi-write frame (R103) -/

/-- The fields of the three bytes side by side, each byte's highest first. -/
theorem dacFrame_eq_append (p : Params) (c : Fin 4) (k : DacChannel) (d : BitVec 12) :
    dacFrame p c k d = [(p.dacCmdMultiwrite ++ (BitVec.ofFin c ++ p.dacUdac) : BitVec (5 + (2 + 1))),
      (k.vref ++ (k.pd ++ (k.gain ++ d.extractLsb' 8 4)) : BitVec (1 + (2 + (1 + 4)))), d.extractLsb' 0 8] := by
  have hchannel : BitVec.ofNat 8 c.val = (BitVec.ofFin c : BitVec 2).setWidth 8 := by
    revert c
    decide
  simp only [dacFrame, hchannel, BitVec.or_assoc]
  iterate 5 rw [shiftLeft_or_eq_setWidth_append]
  rw [BitVec.setWidth_eq, BitVec.setWidth_eq]

/-- The three bytes as numbers: command, channel and update bit; control bits and the count's top four; the rest of the
count. -/
theorem dacFrame_layout (p : Params) (c : Fin 4) (k : DacChannel) (d : BitVec 12) :
    ∃ b0 b1 b2 : Byte, dacFrame p c k d = [b0, b1, b2] ∧
      b0.toNat = p.dacCmdMultiwrite.toNat * 8 + c.val * 2 + p.dacUdac.toNat ∧
      b1.toNat = k.vref.toNat * 128 + k.pd.toNat * 32 + k.gain.toNat * 16 + d.toNat / 256 ∧
      b2.toNat = d.toNat % 256 := by
  have hd : d.toNat / 256 < 16 := Nat.div_lt_of_lt_mul d.isLt
  refine ⟨_, _, _, dacFrame_eq_append p c k d, ?_, ?_, ?_⟩
  · simp only [toNat_append_eq_add, BitVec.toNat_ofFin]
    omega
  · simp only [toNat_append_eq_add, toNat_extractLsb'_eq_mod]
    omega
  · simp only [toNat_extractLsb'_eq_mod]
    omega

/-- The stated command code, with the update bit clear, leaves only the channel to vary in the first byte. -/
theorem dacFirstByte_of_stated {p : Params} (hp : p.Stated) {b : Byte} {ch : Nat}
    (hb : b.toNat = p.dacCmdMultiwrite.toNat * 8 + ch * 2 + p.dacUdac.toNat) : b.toNat = 0b01000 * 8 + ch * 2 := by
  rw [hb, hp.dacCmdMultiwrite, hp.dacUdac]
  rfl

/-! ### What each operation does, for a channel and for the sentinel -/

section Operations

variable (s : State) (c : Fin 4) {ch : Nat} (pd gain vref : Nat) (data : Int)

theorem exec_dacFrame_channel :
    exec (.dacFrame c.val pd gain vref data) s =
      .next (s.ret (.bytes (dacFrame s.params c (dacChannelRecord pd gain vref) (clamp12 s.params data)))) := by
  rw [exec, execDacFrame, dacChannelOf_val]

theorem exec_dacSetcfg_channel :
    exec (.dacSetcfg c.val pd gain vref) s =
      .next ((s.setDacChannel c (dacChannelRecord pd gain vref)).ret (.nat 0)) := by
  rw [exec, execDacSetcfg, dacChannelOf_val]

theorem exec_dacWrite_channel :
    exec (.dacWrite c.val data) s = .next (endOperation (s.dacWriteSteps c data)) := by
  rw [exec, execDacWrite, dacChannelOf_val]

variable (hnone : 4 ≤ ch)
include hnone

theorem exec_dacFrame_sentinel :
    exec (.dacFrame ch pd gain vref data) s = .next (s.raise .badOperand (.nat 0)) := by
  rw [exec, execDacFrame, dacChannelOf_of_ge hnone]

theorem exec_dacSetcfg_sentinel :
    exec (.dacSetcfg ch pd gain vref) s = .next (s.raise .badOperand (.nat 0)) := by
  rw [exec, execDacSetcfg, dacChannelOf_of_ge hnone]

theorem exec_dacWrite_sentinel : exec (.dacWrite ch data) s = .next (s.raise .badOperand (.nat 0)) := by
  rw [exec, execDacWrite, dacChannelOf_of_ge hnone]

end Operations

/-- The steps of DAC.WRITE under the unrestricted oracle: one choice and one event, and success where that choice takes
all three bytes. -/
theorem State.dacWriteSteps_after {s : State} (ho : s.env.devices = none) (c : Fin 4) (data : Int) :
    ∃ t : Timestamp, s.env.clock.toNat ≤ t.toNat ∧
      s.dacWriteSteps c data =
        (if transferResult (s.drawAt 0).result 3 = 3 then
          .ok (.bytes (dacFrame s.params c s.dac.cfg[c] (clamp12 s.params data))) else .error .bus,
        { s with
          env := envAfter s 1 t
          history := .write s.params.dacBus (dacAddr s.params)
            (dacFrame s.params c s.dac.cfg[c] (clamp12 s.params data)) false
            (transferResult (s.drawAt 0).result 3) :: s.history }) := by
  obtain ⟨t, ht, hw⟩ := State.busWrite_after (envAfter_zero s).symm ho s.params.dacBus (dacAddr s.params)
    (dacFrame s.params c s.dac.cfg[c] (clamp12 s.params data)) false
  refine ⟨t, ht, ?_⟩
  rw [State.dacWriteSteps, hw]
  rfl

/-- An operation that ends after one event of the bus, with a result that tells a value from a bus failure. -/
theorem State.conclude_ite_eq_afterRun (s : State) {ok : Prop} [Decidable ok] (v : Value) (e : Event) (k : Nat)
    (t : Timestamp) :
    State.conclude { s with env := envAfter s k t, history := e :: s.history } (if ok then .ok v else .error .bus) =
      s.afterRun (if ok then { ok := true, err := .none, value := v }
        else { ok := false, err := .bus, value := .nat 0 }) [e] k t := by
  split <;> rfl

/-! ### The statements -/

/-- Settles O22: the record's frame is the one transaction, and its result decides the ending. -/
theorem dacWriteSendsFrame : Obligations.DacWriteSendsFrame := by
  intro ch data s
  refine ⟨decode_encode_of_codeInstr (Laws.OperandRecordFits.dacWrite ch data) rfl, ?_, fun hnone => ?_⟩
  · rintro c w rfl hawaits
    have hw : s.drawAt 0 = w := hawaits.draw 0 (Nat.zero_lt_succ _)
    obtain ⟨b0, b1, b2, hframe, h0, h1, h2⟩ := dacFrame_layout s.params c s.dac.cfg[c] (clamp12 s.params data)
    obtain ⟨t, ht, hsteps⟩ := State.dacWriteSteps_after hawaits.oracle c data
    rw [hframe, hw] at hsteps
    refine ⟨b0, b1, b2, _, t, transferResult w.result 3, _, h0, h1, h2, fun hmax => clamp12_toNat hmax data,
      fun hp => ⟨dacFirstByte_of_stated hp h0, clamp12_toNat_of_stated hp data⟩,
      transferResult_eq_iff w.result 3 (by decide), rfl, ht, ?_⟩
    rw [exec_dacWrite_channel, hsteps]
    exact congrArg Host.Outcome.next (s.conclude_ite_eq_afterRun _ _ 1 t)
  · rw [exec_dacWrite_sentinel s data hnone, State.next_raise_eq]

/-- Settles O19: a clamped count is at most `DAC_MAX`, so the twelve bits hold it whole. -/
theorem dacClampKeepsRange : Obligations.DacClampKeepsRange := by
  intro data s
  refine ⟨decode_encode_of_codeInstr (Laws.OperandRecordFits.dacClamp data) rfl, clamp12 s.params data,
    fun hmax => ?_, fun hp => ?_, s.next_ret_eq _⟩
  · rw [clamp12_toNat hmax, min_max_zero_eq_ite (Int.natCast_nonneg _)]
  · rw [clamp12_toNat_of_stated hp, min_max_zero_eq_ite (by decide)]

/-- Settles O20: the frame is built from the saturated record and the clamped count. -/
theorem dacFrameLayout : Obligations.DacFrameLayout := by
  intro ch pd gain vref data s
  refine ⟨decode_encode_of_codeInstr (Laws.OperandRecordFits.dacFrame ch pd gain vref data) rfl, fun hch => ?_,
    fun hnone => ?_⟩
  · obtain ⟨b0, b1, b2, hframe, h0, h1, h2⟩ :=
      dacFrame_layout s.params ⟨ch, hch⟩ (dacChannelRecord pd gain vref) (clamp12 s.params data)
    rw [dacChannelRecord_vref_toNat, dacChannelRecord_pd_toNat, dacChannelRecord_gain_toNat] at h1
    refine ⟨b0, b1, b2, _, h0, h1, h2, fun hmax => clamp12_toNat hmax data,
      fun hp => ⟨dacFirstByte_of_stated hp h0, clamp12_toNat_of_stated hp data⟩, ?_⟩
    rw [exec_dacFrame_channel s ⟨ch, hch⟩, hframe, State.next_ret_eq]
  · rw [exec_dacFrame_sentinel s pd gain vref data hnone, State.next_raise_eq]

/-- Settles O21: the saturated record replaces one entry of the table. -/
theorem dacSetcfgStoresRecord : Obligations.DacSetcfgStoresRecord := by
  intro ch pd gain vref s
  refine ⟨decode_encode_of_codeInstr (Laws.OperandRecordFits.dacSetcfg ch pd gain vref) rfl, ?_, fun hnone => ?_⟩
  · rintro c rfl
    refine ⟨s.dac.cfg.set c.val (dacChannelRecord pd gain vref), ?_, fun k hk => ?_, exec_dacSetcfg_channel s c ..⟩
    · rw [Fin.getElem_fin, Vector.getElem_set_self]
      exact ⟨dacChannelRecord_pd_toNat .., dacChannelRecord_gain_toNat .., dacChannelRecord_vref_toNat ..⟩
    · exact Vector.getElem_set_ne c.isLt k.isLt fun h => hk (Fin.ext h.symm)
  · rw [exec_dacSetcfg_sentinel s pd gain vref hnone, State.next_raise_eq]

end Sys2Proof.Machine

/-! PROOF. The page read of the EEPROM unit (spec/43_eeprom.md R221): the wait before it and its two transactions under
the unrestricted oracle, and what EE.READ makes of each way they can go. -/

namespace Sys2Proof.Machine

/-! ### Choices after others -/

/-- The choices that come after those of `pre`, counted from there. -/
theorem State.Awaits.draw_append {s : State} {pre ds : List Draw} (h : s.Awaits (pre ++ ds)) (j : Nat)
    (hj : j < ds.length) : s.drawAt (pre.length + j) = ds[j] := by
  rw [h.draw (pre.length + j) (by simp [hj]), List.getElem_append_right (Nat.le_add_right _ _)]
  simp

/-! ### A page's bytes: its address on the wire (R109) and its content in PBUF (R221) -/

/-- The two bytes keep what sixteen bits keep of a number. -/
theorem bigEndianBytes_mod (n : Nat) : bigEndianBytes (n % 65536) = bigEndianBytes n := by
  simp only [bigEndianBytes, ← BitVec.toNat_inj, BitVec.toNat_ofNat, List.cons.injEq, and_true]
  omega

theorem pageAddrBytes_eq (p : Params) (id : Nat) : pageAddrBytes p id = bigEndianBytes (id * p.eePageSize) := by
  rw [pageAddrBytes, bytesOfHalf_eq, pageAddr, BitVec.toNat_ofNat]
  exact bigEndianBytes_mod _

/-- A whole page written to PBUF is what its 32 addresses then hold. -/
theorem Memory.lookup_writeBytes_page (m : Memory) (p : Page) (a : Nat) :
    (m.writeBytes 0 p.toList).lookup a = if h : a < 32 then some p[a] else m.lookup a := by
  rw [Memory.lookup_writeBytes, Vector.length_toList, Nat.zero_add, Nat.sub_zero]
  by_cases ha : a < 32
  · rw [if_pos ⟨Nat.zero_le a, ha⟩, dif_pos ha]
    simp [ha]
  · rw [if_neg fun h => ha h.2, dif_neg ha]

/-! ### The steps of a page read under the unrestricted oracle (R221) -/

/-- The event of the wait before a page read, where `READ_WAITS_FOR_READY` asks for one (P26): a sleep is one also when
its time has passed (log entry 8). -/
def State.readWaitEvents (s : State) : List Event :=
  if s.params.readWaitsForReady then [.sleep s.ee.readyTime] else []

theorem State.length_readWaitEvents (s : State) :
    s.readWaitEvents.length = if s.params.readWaitsForReady then 1 else 0 := by
  rw [State.readWaitEvents]
  split <;> rfl

/-- The wait is one choice where it is a sleep, and none where it is not asked for. -/
theorem State.waitForRead_after (s : State) :
    ∃ now : Timestamp, s.env.clock.toNat ≤ now.toNat ∧
      s.waitForRead = { s with
        env := envAfter s s.readWaitEvents.length now
        history := s.readWaitEvents ++ s.history } := by
  cases hwait : s.params.readWaitsForReady with
  | true =>
    obtain ⟨now, hnow, -, hsleep⟩ := State.sleepUntil_after (envAfter_zero s).symm s.ee.readyTime
    refine ⟨now, hnow, ?_⟩
    simp only [State.waitForRead, State.readWaitEvents, hwait, if_true, hsleep]
    rfl
  | false =>
    refine ⟨s.env.clock, Nat.le_refl _, ?_⟩
    simp only [State.waitForRead, State.readWaitEvents, hwait, Bool.false_eq_true, if_false]
    exact congrArg (fun e => { s with env := e }) (envAfter_zero s).symm

/-- The address write of page `id`, with its result (R109). -/
def pageAddressEvent (p : Params) (id : Nat) (r : Int) : Event :=
  .write p.eeBus (eeAddr p) (bigEndianBytes (id * p.eePageSize)) true r

/-- The read of a page's 32 bytes, with its result (R109). -/
def pageDataEvent (p : Params) (r : Int) (data : List Byte) : Event :=
  .read p.eeBus (eeAddr p) 32 false r data

section Transfers

variable {s t : State} {k : Nat} {now : Timestamp}

/-- The address write: one choice and one event. -/
theorem State.pageAddressWrite_after (h : t.env = envAfter s k now) (ho : s.env.devices = none) (id : Nat) :
    ∃ now' : Timestamp, now.toNat ≤ now'.toNat ∧
      t.busWrite t.params.eeBus (eeAddr t.params) (pageAddrBytes t.params id) true =
        (transferResult (s.drawAt k).result 2,
          { t with
            env := envAfter s (k + 1) now'
            history := pageAddressEvent t.params id (transferResult (s.drawAt k).result 2) :: t.history }) := by
  rw [pageAddrBytes_eq]
  exact State.busWrite_after h ho _ _ _ true

/-- An address that is not taken ends the page read. -/
theorem State.readPageTransfers_notTaken (h : t.env = envAfter s k now) (ho : s.env.devices = none)
    (hshort : (s.drawAt k).result < 2) (id : Nat) :
    ∃ (now' : Timestamp) (r : Int), now.toNat ≤ now'.toNat ∧ r < 2 ∧
      t.readPageTransfers id = (.noAddress,
        { t with
          env := envAfter s (k + 1) now'
          history := pageAddressEvent t.params id r :: t.history }) := by
  obtain ⟨now', hnow, hwrite⟩ := State.pageAddressWrite_after h ho id
  have hr : transferResult (s.drawAt k).result 2 < 2 := transferResult_of_lt (len := 2) hshort
  refine ⟨now', _, hnow, hr, ?_⟩
  simp only [State.readPageTransfers, hwrite, if_neg (Int.ne_of_lt hr)]

/-- An address that is taken is followed by the read, whose choice decides whether the page's bytes arrived. -/
theorem State.readPageTransfers_taken (h : t.env = envAfter s k now) (ho : s.env.devices = none)
    (htaken : 2 ≤ (s.drawAt k).result) (id : Nat) :
    ∃ now' : Timestamp, now.toNat ≤ now'.toNat ∧
      t.readPageTransfers id =
        (if transferResult (s.drawAt (k + 1)).result 32 = 32 then .page (s.drawAt (k + 1)).data.toList else .noData,
        { t with
          env := envAfter s (k + 2) now'
          history := pageDataEvent t.params (transferResult (s.drawAt (k + 1)).result 32)
            (s.drawAt (k + 1)).data.toList :: pageAddressEvent t.params id 2 :: t.history }) := by
  obtain ⟨written, hnow, hwrite⟩ := State.pageAddressWrite_after h ho id
  rw [show transferResult (s.drawAt k).result 2 = 2 from transferResult_of_ge (len := 2) htaken] at hwrite
  obtain ⟨now', hlater, hread⟩ := State.busRead_after (s := s) (k := k + 1) (c := written)
    (t := (t.busWrite t.params.eeBus (eeAddr t.params) (pageAddrBytes t.params id) true).2) (by rw [hwrite]) ho
    t.params.eeBus (eeAddr t.params) 32 false
  refine ⟨now', Nat.le_trans hnow hlater, ?_⟩
  rw [hwrite, drawnBytes_page] at hread
  simp only [State.readPageTransfers, hwrite, if_true, hread]
  split <;> rfl

end Transfers

/-! ### The page read whole: the wait, then the transactions -/

section PageRead

variable {s : State} {n : Nat} (hn : n = if s.params.readWaitsForReady then 1 else 0) (ho : s.env.devices = none)
include hn ho

/-- A page read whose address is not taken: no read is issued. -/
theorem State.readPageRaw_notTaken (hshort : (s.drawAt n).result < 2) (id : Nat) :
    ∃ (now : Timestamp) (r : Int), s.env.clock.toNat ≤ now.toNat ∧ r < 2 ∧
      s.readPageRaw id = (.noAddress,
        { s with
          env := envAfter s (n + 1) now
          history := pageAddressEvent s.params id r :: (s.readWaitEvents ++ s.history) }) := by
  obtain ⟨ready, hready, hwait⟩ := s.waitForRead_after
  rw [s.length_readWaitEvents, ← hn] at hwait
  obtain ⟨now, r, hnow, hr, hread⟩ := State.readPageTransfers_notTaken (congrArg State.env hwait) ho hshort id
  refine ⟨now, r, Nat.le_trans hready hnow, hr, ?_⟩
  rw [State.readPageRaw, hread, hwait]

/-- A page read whose address is taken: the read's choice decides between the page and a failed data phase. -/
theorem State.readPageRaw_taken (htaken : 2 ≤ (s.drawAt n).result) (id : Nat) :
    ∃ now : Timestamp, s.env.clock.toNat ≤ now.toNat ∧
      s.readPageRaw id =
        (if transferResult (s.drawAt (n + 1)).result 32 = 32 then .page (s.drawAt (n + 1)).data.toList else .noData,
        { s with
          env := envAfter s (n + 2) now
          history := pageDataEvent s.params (transferResult (s.drawAt (n + 1)).result 32)
            (s.drawAt (n + 1)).data.toList ::
              pageAddressEvent s.params id 2 :: (s.readWaitEvents ++ s.history) }) := by
  obtain ⟨ready, hready, hwait⟩ := s.waitForRead_after
  rw [s.length_readWaitEvents, ← hn] at hwait
  obtain ⟨now, hnow, hread⟩ := State.readPageTransfers_taken (congrArg State.env hwait) ho htaken id
  refine ⟨now, Nat.le_trans hready hnow, ?_⟩
  rw [State.readPageRaw, hread, hwait]

end PageRead

/-! ### EE.READ, for each way its page read can end -/

section EeRead

variable {s t : State} {id : Nat}

theorem exec_eeRead_of_ge (hid : s.params.eePages ≤ id) :
    exec (.eeRead id) s = .next (s.raise .badOperand (.nat 0)) :=
  congrArg Host.Outcome.next (if_pos hid)

theorem exec_eeRead_of_lt (hid : id < s.params.eePages) : exec (.eeRead id) s = .next (s.eeReadPage id) :=
  congrArg Host.Outcome.next (if_neg (Nat.not_le_of_lt hid))

variable (hid : id < s.params.eePages)
include hid

theorem exec_eeRead_of_page {p : List Byte} (hread : s.readPageRaw id = (.page p, t)) :
    exec (.eeRead id) s = .next ((t.fillPbuf p).ret (.nat 0)) := by
  rw [exec_eeRead_of_lt hid, State.eeReadPage, hread]

theorem exec_eeRead_of_noAddress (hread : s.readPageRaw id = (.noAddress, t)) :
    exec (.eeRead id) s = .next (t.raise .bus (.nat 0)) := by
  rw [exec_eeRead_of_lt hid, State.eeReadPage, hread]

theorem exec_eeRead_of_noData (hread : s.readPageRaw id = (.noData, t)) :
    exec (.eeRead id) s = .next ((t.afterDraw.fillPbuf (t.drawBytes 32)).raise .bus (.nat 0)) := by
  rw [exec_eeRead_of_lt hid, State.eeReadPage, hread]

end EeRead

/-- Settles O42: the wait leaves the two transactions their choices, and these decide between the page, an untouched
PBUF and 32 drawn bytes. -/
theorem eeReadFillsPbuf : Obligations.EeReadFillsPbuf := by
  intro id s pre w r g
  refine ⟨decode_encode_of_codeInstr (Laws.OperandRecordFits.eeRead id) rfl, fun hid => ?_, fun hid hpre =>
    ⟨fun hawaits hw hr => ?_, fun hawaits hw => ?_, fun hawaits hw hr => ?_⟩⟩
  · rw [exec_eeRead_of_ge hid, State.next_raise_eq]
  · have hdw : s.drawAt pre.length = w := hawaits.draw_append 0 (Nat.zero_lt_succ _)
    have hdr : s.drawAt (pre.length + 1) = r := hawaits.draw_append 1 (by simp)
    have hfull : transferResult r.result 32 = 32 := transferResult_of_ge (len := 32) hr
    obtain ⟨now, -, hread⟩ := State.readPageRaw_taken hpre hawaits.oracle (hdw ▸ hw) id
    rw [hdr, hfull, if_pos rfl] at hread
    exact ⟨_, now, s.pbuf.lookup_writeBytes_page r.data, exec_eeRead_of_page hid hread⟩
  · have hdw : s.drawAt pre.length = w := hawaits.draw_append 0 (Nat.zero_lt_succ _)
    obtain ⟨now, k, -, hk, hread⟩ := State.readPageRaw_notTaken hpre hawaits.oracle (hdw ▸ hw) id
    exact ⟨now, k, hk, exec_eeRead_of_noAddress hid hread⟩
  · have hdw : s.drawAt pre.length = w := hawaits.draw_append 0 (Nat.zero_lt_succ _)
    have hdr : s.drawAt (pre.length + 1) = r := hawaits.draw_append 1 (by simp)
    have hdg : s.drawAt (pre.length + 2) = g := hawaits.draw_append 2 (by simp)
    have hk : transferResult r.result 32 < 32 := transferResult_of_lt (len := 32) hr
    obtain ⟨now, -, hread⟩ := State.readPageRaw_taken hpre hawaits.oracle (hdw ▸ hw) id
    rw [hdr, if_neg (Int.ne_of_lt hk)] at hread
    refine ⟨_, now, _, r.data.toList, hk, s.pbuf.lookup_writeBytes_page g.data, ?_⟩
    rw [exec_eeRead_of_noData hid hread, State.afterDraw_after rfl, State.drawBytes, State.nextDraw_after rfl, hdg,
      drawnBytes_page]
    rfl

end Sys2Proof.Machine

/-! PROOF. The fault of the page write (spec/60_exceptions.md R258; spec/43_eeprom.md R223): EE.WRITE for each way its
check of the id and its reading of PBUF can end, and the next state that every other operation answers. -/

namespace Sys2Proof.Machine

/-! ### A stretch of PBUF with an unwritten byte -/

theorem Memory.readBytes_eq_none_iff (m : Memory) (a n : Nat) :
    m.readBytes a n = none ↔ ∃ i, i < n ∧ m.lookup (a + i) = none := by
  rw [← Option.not_isSome_iff_eq_none, Memory.readBytes_isSome]
  simp

/-- The read of all of PBUF that EE.WRITE begins with. -/
theorem Memory.readPbuf_eq_none_iff (m : Memory) :
    m.readBytes 0 pbufSize = none ↔ ∃ a, a < 32 ∧ m.lookup a = none := by
  simp [Memory.readBytes_eq_none_iff, pbufSize]

/-! ### EE.WRITE, for each way it can begin -/

section EeWrite

variable {s : State} {id : Nat}

theorem exec_eeWrite_of_ge (hid : s.params.eePages ≤ id) :
    exec (.eeWrite id) s = .next (s.raise .badOperand (.nat 0)) :=
  if_pos hid

variable (hid : id < s.params.eePages)
include hid

theorem exec_eeWrite_of_unwritten (hread : s.pbuf.readBytes 0 pbufSize = none) :
    exec (.eeWrite id) s = .fault (.pbufUnwritten s.faulted) := by
  rw [exec, execEeWrite, if_neg (Nat.not_le_of_lt hid), hread]

theorem exec_eeWrite_of_written {p : List Byte} (hread : s.pbuf.readBytes 0 pbufSize = some p) :
    exec (.eeWrite id) s = .next (endPageWrite (s.writePageRaw id p)) := by
  rw [exec, execEeWrite, if_neg (Nat.not_le_of_lt hid), hread]

end EeWrite

/-- EE.WRITE goes on unless it names a valid page and PBUF has an unwritten byte. -/
theorem exec_eeWrite_next {s : State} {id : Nat}
    (h : ¬(id < s.params.eePages ∧ ∃ a, a < 32 ∧ s.pbuf.lookup a = none)) : ∃ t, exec (.eeWrite id) s = .next t := by
  rcases Nat.lt_or_ge id s.params.eePages with hid | hid
  · cases hread : s.pbuf.readBytes 0 pbufSize with
    | none => exact absurd ⟨hid, s.pbuf.readPbuf_eq_none_iff.1 hread⟩ h
    | some p => exact ⟨_, exec_eeWrite_of_written hid hread⟩
  · exact ⟨_, exec_eeWrite_of_ge hid⟩

/-! ### The other operations -/

/-- A number is one of the four channels, or stands for the sentinel (R105). -/
theorem eq_channel_or_ge (ch : Nat) : (∃ c : Fin 4, ch = c.val) ∨ 4 ≤ ch :=
  (Nat.lt_or_ge ch 4).imp_left fun h => ⟨⟨ch, h⟩, rfl⟩

/-- An operation other than EE.WRITE neither faults nor is refused. Most answer a next state on their one path; those
that refuse an operand or a busy unit do so by a result, so that both of their paths go on. -/
theorem exec_next_of_ne_eeWrite {i : Instr} (h : ∀ id, i ≠ .eeWrite id) (s : State) : ∃ t, exec i s = .next t := by
  cases i with
  | eeWrite id => exact absurd rfl (h id)
  | adcConfig pga dr cmode cpol clat cque =>
    by_cases hbusy : s.adc.phase = .converting
    · exact ⟨_, exec_adcConfig_converting hbusy ..⟩
    · exact ⟨_, exec_adcConfig_not_converting hbusy ..⟩
  | dacFrame ch pd gain vref data =>
    obtain ⟨c, rfl⟩ | hnone := eq_channel_or_ge ch
    · exact ⟨_, exec_dacFrame_channel ..⟩
    · exact ⟨_, exec_dacFrame_sentinel _ _ _ _ _ hnone⟩
  | dacSetcfg ch pd gain vref =>
    obtain ⟨c, rfl⟩ | hnone := eq_channel_or_ge ch
    · exact ⟨_, exec_dacSetcfg_channel ..⟩
    · exact ⟨_, exec_dacSetcfg_sentinel _ _ _ _ hnone⟩
  | dacWrite ch data =>
    obtain ⟨c, rfl⟩ | hnone := eq_channel_or_ge ch
    · exact ⟨_, exec_dacWrite_channel ..⟩
    · exact ⟨_, exec_dacWrite_sentinel _ _ hnone⟩
  | _ => exact ⟨_, rfl⟩

/-! ### The faulted state -/

theorem step_of_faultMark {s : State} (hmark : s.faultMark = true) : step s = .fault (.pbufUnwritten s) :=
  if_pos hmark

/-- Settles O4: the page write's reading of PBUF is the only way to a fault, and it fails exactly on an unwritten
byte. -/
theorem faultOnlyOnUnwrittenBuffer : Obligations.FaultOnlyOnUnwrittenBuffer := by
  refine ⟨fun i s => ⟨?_, fun hno => ?_⟩, fun s => step_of_faultMark⟩
  · rintro ⟨⟨id, rfl, hid⟩, hunwritten⟩
    exact exec_eeWrite_of_unwritten hid (s.pbuf.readPbuf_eq_none_iff.2 hunwritten)
  · by_cases hwrite : ∃ id, i = .eeWrite id
    · obtain ⟨id, rfl⟩ := hwrite
      exact exec_eeWrite_next fun ⟨hid, hunwritten⟩ => hno ⟨⟨id, rfl, hid⟩, hunwritten⟩
    · exact exec_next_of_ne_eeWrite (fun id hi => hwrite ⟨id, hi⟩) s

end Sys2Proof.Machine

/-! PROOF. The state after reset (spec/70_reset_and_hazards.md R280): the rows of the table that speak of more than one
cell, the DAC's four channels and all of PBUF, and then the table. -/

namespace Sys2Proof.Machine

/-- A memory in which no byte was ever stored. -/
@[simp] theorem Memory.lookup_nil (a : Nat) : Memory.lookup [] a = none := rfl

/-- The row of `S.pbuf`: the host has to write PBUF before the first EE.WRITE (R283). -/
@[simp] theorem State.reset_pbuf_lookup (a : Nat) : State.reset.pbuf.lookup a = none := Memory.lookup_nil a

theorem State.reset_dac_cfg : State.reset.dac.cfg = Vector.replicate 4 { pd := 0, gain := 0, vref := 0 } := rfl

/-- The row of `S.dac.cfg`: no channel's record differs from another's. -/
@[simp] theorem State.reset_dac_cfg_getElem (c : Fin 4) :
    State.reset.dac.cfg[c] = { pd := 0, gain := 0, vref := 0 } := by
  rw [State.reset_dac_cfg, Fin.getElem_fin, Vector.getElem_replicate]

/-- Settles O1: `S.adc` is written out by `AdcState.reset`, the other rows of one cell by `State.reset`; the rows of
`S.dac.cfg` and `S.pbuf` hold for every channel and every address. -/
theorem resetGivesListedValues : Obligations.ResetGivesListedValues :=
  ⟨rfl, rfl, rfl, rfl, rfl, rfl, rfl, rfl, rfl, rfl, rfl, State.reset_dac_cfg_getElem, rfl, State.reset_pbuf_lookup,
    rfl, rfl, rfl⟩

end Sys2Proof.Machine

/-! PROOF. The decoder against the encoder (spec/30_encoding.md R90 to R93), and a step on each of the host's moves
(spec/60_exceptions.md R250, R268; spec/20_memory.md R70). -/

namespace Sys2Proof.Machine

/-! ### From an operation to its code and record, and back -/

/-- A truth value is read back from the number it is written as. -/
theorem decide_ite_one_zero (b : Bool) : decide ((if b then (1 : Int) else 0) = 1) = b := by
  cases b <;> rfl

/-- An ADC.READC with the truth value of its operand written as 0 or 1. -/
theorem decode_adcReadc (ch : Nat) (force : Bool) :
    decode ⟨0x13, [ch, if force then 1 else 0]⟩ = .instr (.adcReadc ch force) := by
  refine decode_encode_of_codeInstr (Laws.OperandRecordFits.adcReadc ch force) ?_
  change some (Instr.adcReadc ch (decide ((if force then (1 : Int) else 0) = 1))) = _
  rw [decide_ite_one_zero]

/-- The record of every operation has the shape its code selects. -/
theorem operandRecordFits (i : Instr) : Laws.OperandRecordFits.Statement i := by
  cases i with
  | codecPack => exact Laws.OperandRecordFits.codecPack ..
  | codecUnpack => exact Laws.OperandRecordFits.codecUnpack ..
  | codecNum2os => exact Laws.OperandRecordFits.codecNum2os ..
  | codecNum2mux => exact Laws.OperandRecordFits.codecNum2mux ..
  | codecNum2pga => exact Laws.OperandRecordFits.codecNum2pga ..
  | codecNum2mode => exact Laws.OperandRecordFits.codecNum2mode ..
  | codecNum2dr => exact Laws.OperandRecordFits.codecNum2dr ..
  | codecNum2cmode => exact Laws.OperandRecordFits.codecNum2cmode ..
  | codecNum2cpol => exact Laws.OperandRecordFits.codecNum2cpol ..
  | codecNum2clat => exact Laws.OperandRecordFits.codecNum2clat ..
  | codecNum2cque => exact Laws.OperandRecordFits.codecNum2cque ..
  | codecLatency => exact Laws.OperandRecordFits.codecLatency ..
  | codecFsr => exact Laws.OperandRecordFits.codecFsr ..
  | codecVolts => exact Laws.OperandRecordFits.codecVolts ..
  | codecCtrlbyte => exact Laws.OperandRecordFits.codecCtrlbyte ..
  | codecSig => exact Laws.OperandRecordFits.codecSig
  | adcConfig => exact Laws.OperandRecordFits.adcConfig ..
  | adcStart => exact Laws.OperandRecordFits.adcStart ..
  | adcComplete => exact Laws.OperandRecordFits.adcComplete ..
  | adcReadc => exact Laws.OperandRecordFits.adcReadc ..
  | adcStatus => exact Laws.OperandRecordFits.adcStatus
  | dacClamp => exact Laws.OperandRecordFits.dacClamp ..
  | dacFrame => exact Laws.OperandRecordFits.dacFrame ..
  | dacSetcfg => exact Laws.OperandRecordFits.dacSetcfg ..
  | dacWrite => exact Laws.OperandRecordFits.dacWrite ..
  | eeRead => exact Laws.OperandRecordFits.eeRead ..
  | eeWrite => exact Laws.OperandRecordFits.eeWrite ..
  | eeReady => exact Laws.OperandRecordFits.eeReady ..
  | eeFormat => exact Laws.OperandRecordFits.eeFormat
  | eeInit => exact Laws.OperandRecordFits.eeInit
  | eeChecksig => exact Laws.OperandRecordFits.eeChecksig

/-- Settles O7: four operations have an operand that the record holds in another form (a word, a signed count, two
fields, a truth value); of the others every number is read back as it was written. -/
theorem decodeInvertsEncode : Obligations.DecodeInvertsEncode := by
  intro i
  cases i with
  | codecUnpack word => exact decode_codecUnpack word
  | codecVolts counts pga => exact decode_codecVolts counts pga
  | codecCtrlbyte nibble cs => exact decode_codecCtrlbyte nibble cs
  | adcReadc ch force => exact decode_adcReadc ch force
  | _ => exact decode_encode_of_codeInstr (operandRecordFits _) rfl

/-! ### From a presented operation to what it decodes to, and back -/

theorem toNat_of_admits_nat {x : Int} (h : OperandKind.nat.admits x = true) : (x.toNat : Int) = x :=
  Int.toNat_of_nonneg (of_decide_eq_true h)

theorem toNat_ofInt_of_admits {w : Nat} {x : Int} (h : (OperandKind.bits w).admits x = true) :
    ((BitVec.ofInt w x).toNat : Int) = x := by
  obtain ⟨h0, hlt⟩ := of_decide_eq_true h
  rw [BitVec.toNat_ofInt, Int.toNat_of_nonneg (Int.emod_nonneg _ (by positivity)), Nat.cast_pow]
  exact Int.emod_eq_of_lt h0 hlt

theorem toInt_ofInt_of_admits {x : Int} (h : OperandKind.i16.admits x = true) : (BitVec.ofInt 16 x).toInt = x := by
  obtain ⟨hlow, hhigh⟩ := of_decide_eq_true h
  rw [BitVec.toInt_ofInt]
  exact Int.bmod_eq_of_le (by omega) (by omega)

theorem ite_decide_of_admits {x : Int} (h : OperandKind.bool.admits x = true) :
    (if decide (x = 1) then (1 : Int) else 0) = x := by
  obtain rfl | rfl : x = 0 ∨ x = 1 := of_decide_eq_true h <;> rfl

/-- What decodes to an operation has a listed code and a record of its format, which spell that operation. -/
theorem codeInstr_of_decode {op : Operation} {i : Instr} (h : decode op = .instr i) :
    ∃ f, codeFormat op.code = some f ∧ recordFits (formatKinds f) op.record = true ∧
      codeInstr op.code op.record = some i := by
  unfold decode at h
  split at h
  · cases h
  · rename_i f hf
    split at h
    · split at h
      · cases h
        exact ⟨f, hf, ‹_›, ‹_›⟩
      · cases h
    · cases h

theorem instrCode_of_codeInstr {code : Byte} {record : List Int} {i : Instr} (h : codeInstr code record = some i) :
    instrCode i = code := by
  unfold codeInstr at h
  split at h
  case h_32 => cases h
  all_goals
    cases h
    exact BitVec.eq_of_toNat_eq (Eq.symm ‹code.toNat = _›)

theorem instrRecord_of_codeInstr {code : Byte} {f : Format} {record : List Int} {i : Instr}
    (hf : codeFormat code = some f) (hfit : recordFits (formatKinds f) record = true)
    (h : codeInstr code record = some i) : instrRecord i = record := by
  unfold codeInstr at h
  split at h
  case h_32 => cases h
  all_goals
    rename_i hcode
    cases h
    simp only [codeFormat, hcode, Option.some.injEq] at hf
    subst hf
    simp only [formatKinds, recordFits, Bool.and_eq_true, and_true] at hfit
    simp only [instrRecord, toNat_of_admits_nat, toNat_ofInt_of_admits, toInt_ofInt_of_admits, ite_decide_of_admits,
      hfit]

/-- Settles O8: the code is the one that selects the operation's arm of the map, and each operand's kind admits only
numbers that the operation keeps. -/
theorem encodeInvertsDecode : Obligations.EncodeInvertsDecode := by
  intro op i h
  obtain ⟨f, hf, hfit, hspells⟩ := codeInstr_of_decode h
  rw [encode, instrCode_of_codeInstr hspells, instrRecord_of_codeInstr hf hfit hspells]

/-- Settles O5: each is the encoding of the operation it stands for, with its operands written out. -/
theorem sampleOperationsDecode : Obligations.SampleOperationsDecode :=
  ⟨decodeInvertsEncode (.codecPack 1 4 1 1 7 0 0 0 3), decodeInvertsEncode (.codecVolts 0xFF38 2),
    decodeInvertsEncode (.adcStart 4 1), decodeInvertsEncode (.adcReadc 4 false),
    decodeInvertsEncode (.dacWrite 0 (-10)), decodeInvertsEncode (.eeWrite 2), decodeInvertsEncode .eeChecksig⟩

/-! ### A step on each move of the host -/

section Step

variable {s : State} {rest : List HostMove}

theorem step_of_decode_instr {op : Operation} {i : Instr} (hmark : s.faultMark = false)
    (hport : s.port = .present op :: rest) (hd : decode op = .instr i) : step s = exec i { s with port := rest } := by
  simp only [step_present hmark hport, State.perform, hd]

theorem step_memWrite {a : Nat} {v : List Byte} (hmark : s.faultMark = false)
    (hport : s.port = .memWrite a v :: rest) : step s = State.memWrite { s with port := rest } a v := by
  simp [step, State.takeMove, State.afterMove, hmark, hport]

theorem step_idle (hmark : s.faultMark = false) (hport : s.port = []) : step s = .next s := by
  simp [step, State.takeMove, hmark, hport]

end Step

/-- Settles O3: the host port hands the operation on once its move is taken. -/
theorem stepPerformsPresentedOperation : Obligations.StepPerformsPresentedOperation :=
  fun _ _ _ _ hmark hport hd => step_of_decode_instr hmark hport hd

/-- Settles O2: the stated parameters, the gain 2, no cache, result NONE and two empty memories; and an empty port. -/
theorem resetStateIsSound : Obligations.ResetStateIsSound :=
  ⟨{ paramsStated := test_stated_parameters
     pgaLegal := by unfold State.PgaLegal; decide
     cacheQuiet := fun _ => rfl
     resultConsistent := ⟨fun _ => rfl, fun _ => rfl⟩
     memoriesWf := ⟨test_reset_memory, by rintro v ⟨⟩⟩ },
    rfl, rfl, step_idle rfl rfl⟩

/-! ### PBUF as the host sees it (R70) -/

theorem State.memWrite_of_le {s : State} {a : Nat} {v : List Byte} (h : a + v.length ≤ 32) :
    s.memWrite a v = .next (s.setPbuf (s.pbuf.writeBytes a v)) := if_pos h

theorem State.memWrite_of_gt {s : State} {a : Nat} {v : List Byte} (h : 32 < a + v.length) :
    s.memWrite a v = .refused .pbufRange := if_neg (Nat.not_le_of_lt h)

theorem State.memRead_of_le {s : State} {a n : Nat} (h : a + n ≤ 32) :
    s.memRead a n = some ((List.range n).map fun i => s.pbuf.lookup (a + i)) := if_pos h

theorem State.memRead_of_gt {s : State} {a n : Nat} (h : 32 < a + n) : s.memRead a n = none :=
  if_neg (Nat.not_le_of_lt h)

theorem Memory.lookup_writeBytes_inside (m : Memory) (a : Nat) (v : List Byte) {i : Nat} (hi : i < v.length) :
    (m.writeBytes a v).lookup (a + i) = v[i]? := by
  rw [Memory.lookup_writeBytes, if_pos (by omega), Nat.add_sub_cancel_left]

theorem Memory.lookup_writeBytes_outside (m : Memory) (a : Nat) (v : List Byte) {b : Nat}
    (hb : b < a ∨ a + v.length ≤ b) : (m.writeBytes a v).lookup b = m.lookup b := by
  rw [Memory.lookup_writeBytes, if_neg (by omega)]

/-- A read of the range just written gives the bytes written. -/
theorem State.memRead_writeBytes {s : State} {a : Nat} {v : List Byte} (h : a + v.length ≤ 32) :
    (s.setPbuf (s.pbuf.writeBytes a v)).memRead a v.length = some (v.map some) := by
  rw [State.memRead_of_le h, Option.some_inj]
  refine List.ext_getElem (by simp) fun i hi _ => ?_
  have hlen : i < v.length := by simpa using hi
  simp [Memory.lookup_writeBytes_inside s.pbuf a v hlen, hlen]

/-- Settles O6: the host's write is `Memory.writeBytes` within PBUF's 32 addresses, and nothing beyond them. -/
theorem hostAccessesPbuf : Obligations.HostAccessesPbuf := by
  intro s a v rest hmark hport
  have hstep := step_memWrite hmark hport
  refine ⟨fun hin => ?_, fun hout => ?_⟩
  · exact ⟨s.pbuf.writeBytes a v, hstep.trans (State.memWrite_of_le hin),
      fun i => Memory.lookup_writeBytes_inside s.pbuf a v, fun b => Memory.lookup_writeBytes_outside s.pbuf a v,
      State.memRead_writeBytes hin⟩
  · exact ⟨hstep.trans (State.memWrite_of_gt hout), State.memRead_of_gt hout⟩

end Sys2Proof.Machine

/-! PROOF. The law of the configuration word (spec/40_codec.md section 6): packing and unpacking as numbers. -/

namespace Sys2Proof.Machine

/-- Two words put together of fields of the same widths are the same only if the fields are. -/
theorem append_inj {m n : Nat} {x x' : BitVec m} {y y' : BitVec n} (h : x ++ y = x' ++ y') : x = x' ∧ y = y' := by
  have hx : x = x' := by
    rw [← BitVec.extractLsb'_append_eq_left (a := x) (b := y), h, BitVec.extractLsb'_append_eq_left]
  exact ⟨hx, (BitVec.append_right_inj x').1 (hx ▸ h)⟩

/-- Different records pack into different words. -/
theorem packFields_inj {f g : ConfigFields} (h : packFields f = packFields g) : f = g := by
  rw [packFields_eq_append, packFields_eq_append] at h
  obtain ⟨hos, h⟩ := append_inj (m := 1) (n := 15) h
  obtain ⟨hmux, h⟩ := append_inj (m := 3) (n := 12) h
  obtain ⟨hpga, h⟩ := append_inj (m := 3) (n := 9) h
  obtain ⟨hmode, h⟩ := append_inj (m := 1) (n := 8) h
  obtain ⟨hdr, h⟩ := append_inj (m := 3) (n := 5) h
  obtain ⟨hcmode, h⟩ := append_inj (m := 1) (n := 4) h
  obtain ⟨hcpol, h⟩ := append_inj (m := 1) (n := 3) h
  obtain ⟨hclat, hcque⟩ := append_inj (m := 1) (n := 2) h
  cases f
  cases g
  simp only [ConfigFields.mk.injEq]
  exact ⟨hos, hmux, hpga, hmode, hdr, hcmode, hcpol, hclat, hcque⟩

/-- Every field of a word but the gain is a stretch of its bits. -/
theorem unpackWord_toNat (w : Half) :
    (unpackWord w).mux.toNat = w.toNat / 2 ^ 12 % 8 ∧ (unpackWord w).mode.toNat = w.toNat / 2 ^ 8 % 2 ∧
    (unpackWord w).dr.toNat = w.toNat / 2 ^ 5 % 8 ∧ (unpackWord w).cmode.toNat = w.toNat / 2 ^ 4 % 2 ∧
    (unpackWord w).cpol.toNat = w.toNat / 2 ^ 3 % 2 ∧ (unpackWord w).clat.toNat = w.toNat / 2 ^ 2 % 2 :=
  ⟨toNat_extractLsb'_eq_mod w 12 3, toNat_extractLsb'_eq_mod w 8 1, toNat_extractLsb'_eq_mod w 5 3,
    toNat_extractLsb'_eq_mod w 4 1, toNat_extractLsb'_eq_mod w 3 1, toNat_extractLsb'_eq_mod w 2 1⟩

/-- A word cut into its fields and put together again keeps all bits but the gain's, which are saturated at 5. -/
theorem packFields_unpackWord_toNat (w : Half) :
    (packFields (unpackWord w)).toNat =
      w.toNat / 2 ^ 12 * 2 ^ 12 + min (w.toNat / 2 ^ 9 % 8) 5 * 2 ^ 9 + w.toNat % 2 ^ 9 := by
  have hw := w.isLt
  obtain ⟨hmux, hmode, hdr, hcmode, hcpol, hclat⟩ := unpackWord_toNat w
  rw [packFields_toNat, unpackWord_os_toNat, unpackWord_pga_toNat, unpackWord_cque_toNat, hmux, hmode, hdr, hcmode,
    hcpol, hclat]
  omega

theorem packFields_unpackWord_eq_iff (w : Half) : packFields (unpackWord w) = w ↔ w.toNat / 2 ^ 9 % 8 ≤ 5 := by
  rw [← BitVec.toNat_inj, packFields_unpackWord_toNat]
  omega

/-- The gain's bits of a packed word: what stands below them is less than one of their units. -/
theorem packFields_pga_bits (f : ConfigFields) : (packFields f).toNat / 2 ^ 9 % 8 = f.pga.toNat := by
  have hmode := f.mode.isLt
  have hdr := f.dr.isLt
  have hcmode := f.cmode.isLt
  have hcpol := f.cpol.isLt
  have hclat := f.clat.isLt
  have hcque := f.cque.isLt
  have hbelow : f.mode.toNat * 2 ^ 8 + f.dr.toNat * 2 ^ 5 + f.cmode.toNat * 2 ^ 4 + f.cpol.toNat * 2 ^ 3 +
      f.clat.toNat * 2 ^ 2 + f.cque.toNat < 2 ^ 9 := by omega
  have hpga := f.pga.isLt
  rw [packFields_toNat]
  omega

/-- Settles O13: a word differs from its repacking only by the saturation of the gain, and a record is told from every
other by the word it packs into. -/
theorem packAndUnpackRoundTrip : Obligations.PackAndUnpackRoundTrip := by
  refine ⟨fun f hpga => packFields_inj ?_, packFields_unpackWord_eq_iff, fun w hpga => ?_⟩
  · exact (packFields_unpackWord_eq_iff (packFields f)).2 (by rwa [packFields_pga_bits])
  · rw [packFields_unpackWord_toNat, Nat.min_eq_right (Nat.le_of_lt hpga)]

end Sys2Proof.Machine

/-! PROOF. What the shared operations issue, in every environment (spec/20_memory.md R60 to R74; spec/60_exceptions.md
R262): the events they add to the history are lawful transactions, each held address followed by its read, and sleeps;
the clock does not go back; and the reference EEPROM keeps its canonical form. -/

namespace Sys2Proof.Machine

/-! ### Stretches of history -/

/-- What the steps of an operation add to the history, newest event first: sleeps, writes that release the bus, address
writes that hold it and were not taken, and address writes that were taken, each followed at once by its read (R69). -/
inductive Stretch (p : Params) : List Event → Prop
  | nil : Stretch p []
  | sleep {evs : List Event} (t : Timestamp) (older : Stretch p evs) : Stretch p (.sleep t :: evs)
  | write {evs : List Event} {bus : BusId} {addr : BusAddr} {bytes : List Byte} {r : Int}
      (lawful : (Event.write bus addr bytes false r).Lawful p) (older : Stretch p evs) :
      Stretch p (.write bus addr bytes false r :: evs)
  | refusedAddress {evs : List Event} {bus : BusId} {addr : BusAddr} {bytes : List Byte} {r : Int}
      (lawful : (Event.write bus addr bytes true r).Lawful p) (width : bytes.length = 1 ∨ bytes.length = 2)
      (refused : r ≠ bytes.length) (older : Stretch p evs) : Stretch p (.write bus addr bytes true r :: evs)
  | addressedRead {evs : List Event} {bus : BusId} {addr : BusAddr} {bytes data : List Byte} {n : Nat} {r r' : Int}
      (lawful : (Event.write bus addr bytes true r).Lawful p) (width : bytes.length = 1 ∨ bytes.length = 2)
      (readLawful : (Event.read bus addr n false r' data).Lawful p) (older : Stretch p evs) :
      Stretch p (.read bus addr n false r' data :: .write bus addr bytes true r :: evs)

theorem Stretch.append {p : Params} {newer older : List Event} (h1 : Stretch p newer) (h2 : Stretch p older) :
    Stretch p (newer ++ older) := by
  induction h1 with
  | nil => exact h2
  | sleep t _ ih => exact .sleep t ih
  | write lawful _ ih => exact .write lawful ih
  | refusedAddress lawful width refused _ ih => exact .refusedAddress lawful width refused ih
  | addressedRead lawful width readLawful _ ih => exact .addressedRead lawful width readLawful ih

theorem Stretch.lawful {p : Params} {evs : List Event} (h : Stretch p evs) : ∀ e ∈ evs, e.Lawful p := by
  induction h with
  | nil => simp
  | sleep t _ ih => exact List.forall_mem_cons.2 ⟨trivial, ih⟩
  | write lawful _ ih => exact List.forall_mem_cons.2 ⟨lawful, ih⟩
  | refusedAddress lawful _ _ _ ih => exact List.forall_mem_cons.2 ⟨lawful, ih⟩
  | addressedRead lawful _ readLawful _ ih =>
    exact List.forall_mem_cons.2 ⟨readLawful, List.forall_mem_cons.2 ⟨lawful, ih⟩⟩

theorem Stretch.ne_result {p : Params} {evs : List Event} (h : Stretch p evs) : ∀ e ∈ evs, ∀ r, e ≠ .result r := by
  induction h with
  | nil => simp
  | addressedRead _ _ _ _ ih =>
    exact List.forall_mem_cons.2 ⟨fun _ => Event.noConfusion, List.forall_mem_cons.2 ⟨fun _ => Event.noConfusion, ih⟩⟩
  | _ => exact List.forall_mem_cons.2 ⟨fun _ => Event.noConfusion, ‹_›⟩

/-! ### Held transactions (R69) -/

/-- An event that does not hold the bus leaves the rule as it is. -/
theorem HoldIsFollowed.cons {h : List Event} (hh : HoldIsFollowed h) {e : Event}
    (he : ∀ bus addr bytes r, e ≠ .write bus addr bytes true r) : HoldIsFollowed (e :: h) := by
  intro newer older bus addr bytes r heq
  cases newer with
  | nil => exact absurd (List.cons.inj heq).1 (he bus addr bytes r)
  | cons e' newer =>
    obtain ⟨rfl, htail⟩ := List.cons.inj heq
    obtain ⟨hwidth, hread⟩ := hh newer older bus addr bytes r htail
    refine ⟨hwidth, fun hr => ?_⟩
    obtain ⟨newer', n, r', data, rfl⟩ := hread hr
    exact ⟨e :: newer', n, r', data, rfl⟩

/-- A held address that was not taken asks for no read. -/
theorem HoldIsFollowed.refusedAddress {h : List Event} (hh : HoldIsFollowed h) {bus : BusId} {addr : BusAddr}
    {bytes : List Byte} {r : Int} (width : bytes.length = 1 ∨ bytes.length = 2) (refused : r ≠ bytes.length) :
    HoldIsFollowed (.write bus addr bytes true r :: h) := by
  intro newer older bus' addr' bytes' r' heq
  cases newer with
  | nil =>
    obtain ⟨hhead, -⟩ := List.cons.inj heq
    cases hhead
    exact ⟨width, fun hr => absurd hr refused⟩
  | cons e newer =>
    obtain ⟨rfl, htail⟩ := List.cons.inj heq
    obtain ⟨hwidth, hread⟩ := hh newer older bus' addr' bytes' r' htail
    refine ⟨hwidth, fun hr => ?_⟩
    obtain ⟨newer', n, r'', data, rfl⟩ := hread hr
    exact ⟨_ :: newer', n, r'', data, rfl⟩

/-- A held address followed by the read of its peripheral. -/
theorem HoldIsFollowed.addressedRead {h : List Event} (hh : HoldIsFollowed h) {bus : BusId} {addr : BusAddr}
    {bytes data : List Byte} {n : Nat} {r r' : Int} (width : bytes.length = 1 ∨ bytes.length = 2) :
    HoldIsFollowed (.read bus addr n false r' data :: .write bus addr bytes true r :: h) := by
  intro newer older bus' addr' bytes' s' heq
  match newer with
  | [] => cases heq
  | [e] =>
    obtain ⟨rfl, htail⟩ := List.cons.inj heq
    cases htail
    exact ⟨width, fun _ => ⟨[], n, r', data, rfl⟩⟩
  | e :: e' :: newer =>
    obtain ⟨rfl, htail⟩ := List.cons.inj heq
    obtain ⟨rfl, hrest⟩ := List.cons.inj htail
    obtain ⟨hwidth, hread⟩ := hh newer older bus' addr' bytes' s' hrest
    refine ⟨hwidth, fun hr => ?_⟩
    obtain ⟨newer', n', r'', data', rfl⟩ := hread hr
    exact ⟨_ :: _ :: newer', n', r'', data', rfl⟩

theorem Stretch.holdIsFollowed {p : Params} {evs h : List Event} (he : Stretch p evs) (hh : HoldIsFollowed h) :
    HoldIsFollowed (evs ++ h) := by
  induction he with
  | nil => exact hh
  | sleep t _ ih => exact ih.cons fun _ _ _ _ => Event.noConfusion
  | write _ _ ih => exact ih.cons fun _ _ _ _ heq => by cases heq
  | refusedAddress _ width refused _ ih => exact ih.refusedAddress width refused
  | addressedRead _ width _ _ ih => exact ih.addressedRead width

/-! ### The reference EEPROM's canonical form -/

/-- The reference EEPROM's array, where there is one, is in canonical form. -/
def State.EepromWf (s : State) : Prop := ∀ v, s.env.devices = some v → v.eeprom.mem.eeWf = true

theorem RefEeprom.write_eeWf {e : RefEeprom} (h : e.mem.eeWf = true) (ps : Params) (t0 t1 : Timestamp) (d : Draw)
    (bytes : List Byte) : (e.write ps t0 t1 d bytes).2.mem.eeWf = true := by
  unfold RefEeprom.write
  split
  · exact h
  · split
    · exact h
    · exact h
    · exact h
    · exact RefEeprom.eeWf_store _ _ _ _ h

theorem RefEeprom.read_mem (e : RefEeprom) (t0 : Timestamp) (d : Draw) (n : Nat) :
    (e.read t0 d n).2.2.mem = e.mem := by
  unfold RefEeprom.read
  split <;> rfl

theorem Devices.write_eeWf {v : Devices} (h : v.eeprom.mem.eeWf = true) (p : Params) (t0 t1 : Timestamp) (d : Draw)
    (bus : BusId) (addr : BusAddr) (bytes : List Byte) :
    (v.write p t0 t1 d bus addr bytes).2.eeprom.mem.eeWf = true := by
  unfold Devices.write
  dsimp only
  split
  · exact h
  · split
    · exact h
    · split
      · exact RefEeprom.write_eeWf h ..
      · exact h

/-- A read moves pointers and no byte of the array. -/
theorem Devices.read_mem (v : Devices) (p : Params) (t0 : Timestamp) (d : Draw) (bus : BusId) (addr : BusAddr)
    (n : Nat) : (v.read p t0 d bus addr n).2.2.eeprom.mem = v.eeprom.mem := by
  unfold Devices.read
  dsimp only
  split
  · rfl
  · split
    · rfl
    · split
      · exact RefEeprom.read_mem ..
      · rfl

theorem State.EepromWf.writeAnswer {s : State} (h : s.EepromWf) {bus : BusId} {addr : BusAddr} {bytes : List Byte}
    {v : Devices} (hv : (s.writeAnswer bus addr bytes).2 = some v) : v.eeprom.mem.eeWf = true := by
  unfold State.writeAnswer at hv
  split at hv
  · cases hv
  · cases hv
    exact Devices.write_eeWf (h _ ‹_›) ..

theorem State.EepromWf.readAnswer {s : State} (h : s.EepromWf) {bus : BusId} {addr : BusAddr} {n : Nat}
    {v : Devices} (hv : (s.readAnswer bus addr n).2.2 = some v) : v.eeprom.mem.eeWf = true := by
  unfold State.readAnswer at hv
  split at hv
  · cases hv
  · cases hv
    rw [Devices.read_mem]
    exact h _ ‹_›

/-! ### What is issued from one state to another -/

/-- From `s` to `t` the block has issued a stretch of history with at most `n` transactions and `k` sleeps. -/
structure Issues (n k : Nat) (s t : State) : Prop where
  params : t.params = s.params
  clock : s.env.clock.toNat ≤ t.env.clock.toNat
  eeprom : s.EepromWf → t.EepromWf
  events : ∃ evs, t.history = evs ++ s.history ∧ Stretch s.params evs ∧ (transfers evs).length ≤ n ∧
    (sleeps evs).length ≤ k

theorem Issues.trans {n n' k k' : Nat} {s t u : State} (h1 : Issues n k s t) (h2 : Issues n' k' t u) :
    Issues (n + n') (k + k') s u := by
  obtain ⟨evs1, hist1, stretch1, transfers1, sleeps1⟩ := h1.events
  obtain ⟨evs2, hist2, stretch2, transfers2, sleeps2⟩ := h2.events
  refine ⟨h2.params.trans h1.params, Nat.le_trans h1.clock h2.clock, h2.eeprom ∘ h1.eeprom, evs2 ++ evs1,
    by rw [hist2, hist1, List.append_assoc], (h1.params ▸ stretch2).append stretch1, ?_, ?_⟩
  · simp only [transfers, List.filter_append, List.length_append] at *
    omega
  · simp only [sleeps, List.filter_append, List.length_append] at *
    omega

theorem Issues.mono {n n' k k' : Nat} {s t : State} (h : Issues n k s t) (hn : n ≤ n') (hk : k ≤ k') :
    Issues n' k' s t := by
  obtain ⟨evs, hist, stretch, htransfers, hsleeps⟩ := h.events
  exact ⟨h.params, h.clock, h.eeprom, evs, hist, stretch, Nat.le_trans htransfers hn, Nat.le_trans hsleeps hk⟩

/-- Nothing is issued where the parameters, the environment and the history stay. -/
theorem Issues.of_same {s t : State} (hparams : t.params = s.params) (henv : t.env = s.env)
    (hhist : t.history = s.history) : Issues 0 0 s t :=
  ⟨hparams, by rw [henv], fun h v hv => h v (henv ▸ hv), [], hhist, .nil, Nat.le_refl _, Nat.le_refl _⟩

theorem Issues.refl (s : State) : Issues 0 0 s s := .of_same rfl rfl rfl

/-- Steps of a unit's own after what was issued. -/
theorem Issues.andThen {n k : Nat} {s t u : State} (h : Issues n k s t) (hparams : u.params = t.params)
    (henv : u.env = t.env) (hhist : u.history = t.history) : Issues n k s u :=
  h.trans (.of_same hparams henv hhist)

theorem Issues.of_adc (s : State) (a : AdcState) : Issues 0 0 s { s with adc := a } := .of_same rfl rfl rfl

theorem State.setDacChannel_issues (s : State) (c : Fin 4) (k : DacChannel) : Issues 0 0 s (s.setDacChannel c k) :=
  .of_same rfl rfl rfl

theorem State.fillPbuf_issues (s : State) (p : List Byte) : Issues 0 0 s (s.fillPbuf p) := .of_same rfl rfl rfl

theorem State.afterDraw_issues (s : State) : Issues 0 0 s s.afterDraw :=
  ⟨rfl, Nat.le_refl _, id, [], rfl, .nil, Nat.le_refl _, Nat.le_refl _⟩

theorem State.readClock_issues (s : State) : Issues 0 0 s s.readClock :=
  ⟨rfl, clockForward_le _ _, id, [], rfl, .nil, Nat.le_refl _, Nat.le_refl _⟩

theorem State.armDeadline_issues (s : State) : Issues 0 0 s s.armDeadline :=
  s.readClock_issues.andThen (by simp) (by simp) (by simp)

theorem State.armReadyTime_issues (s : State) : Issues 0 0 s s.armReadyTime :=
  s.readClock_issues.andThen (by simp) (by simp) (by simp)

theorem State.sleepUntil_issues (s : State) (t : Timestamp) : Issues 0 1 s (s.sleepUntil t) :=
  ⟨rfl, (s.sleepUntil_quiet t).clock, id, [.sleep t], rfl, .sleep t .nil, Nat.le_refl _, Nat.le_refl _⟩

/-! ### The bus port -/

section Port

variable {s : State} {bus : BusId} {addr : BusAddr} {bytes : List Byte}

theorem State.writeAnswer_lawful (hport : isUnitPort s.params bus addr) (hwidth : bytes.length ∈ [0, 1, 2, 3, 34])
    (hold : Bool) : (Event.write bus addr bytes hold (s.writeAnswer bus addr bytes).1).Lawful s.params :=
  ⟨hport, hwidth, s.writeAnswer_limits bus addr bytes⟩

theorem State.busWrite_eepromWf (h : s.EepromWf) (hold : Bool) : (s.busWrite bus addr bytes hold).2.EepromWf :=
  fun _ hv => h.writeAnswer hv

theorem State.busRead_eepromWf (h : s.EepromWf) (n : Nat) (hold : Bool) : (s.busRead bus addr n hold).2.2.EepromWf :=
  fun _ hv => h.readAnswer hv

/-- A write that releases the bus. -/
theorem State.busWrite_issues (hport : isUnitPort s.params bus addr) (hwidth : bytes.length ∈ [0, 1, 2, 3, 34]) :
    Issues 1 0 s (s.busWrite bus addr bytes false).2 :=
  ⟨rfl, (State.busWrite_spec ..).1.clock, fun h => State.busWrite_eepromWf h false, [_], rfl,
    .write (State.writeAnswer_lawful hport hwidth false) .nil, Nat.le_refl _, Nat.le_refl _⟩

/-- An address write that was not taken. -/
theorem State.busWrite_refused_issues (hport : isUnitPort s.params bus addr)
    (hwidth : bytes.length = 1 ∨ bytes.length = 2) (hrefused : (s.busWrite bus addr bytes true).1 ≠ bytes.length) :
    Issues 1 0 s (s.busWrite bus addr bytes true).2 :=
  ⟨rfl, (State.busWrite_spec ..).1.clock, fun h => State.busWrite_eepromWf h true, [_], rfl,
    .refusedAddress (State.writeAnswer_lawful hport (by simp; omega) true) hwidth hrefused .nil, Nat.le_refl _,
    Nat.le_refl _⟩

/-- An address write and the read that follows it. -/
theorem State.addressedRead_issues (hport : isUnitPort s.params bus addr)
    (hwidth : bytes.length = 1 ∨ bytes.length = 2) {n : Nat} (hn : n = 2 ∨ n = 32) :
    Issues 2 0 s ((s.busWrite bus addr bytes true).2.busRead bus addr n false).2.2 := by
  obtain ⟨hwrite, -, hwritten⟩ := State.busWrite_spec s bus addr bytes true
  obtain ⟨hread, -, -, hadded⟩ := State.busRead_spec (s.busWrite bus addr bytes true).2 bus addr n false
  obtain ⟨hle, hge, hdata⟩ := State.readAnswer_limits (s.busWrite bus addr bytes true).2 bus addr n (by omega)
  rw [hwritten] at hadded
  exact ⟨(hwrite.trans hread).params, (hwrite.trans hread).clock,
    fun h => State.busRead_eepromWf (State.busWrite_eepromWf h true) n false, [_, _], hadded,
    .addressedRead (State.writeAnswer_lawful hport (by simp; omega) true) hwidth
      ⟨hport, hn, rfl, hle, hge, fun _ => hdata⟩ .nil, Nat.le_refl _, Nat.le_refl _⟩

end Port

theorem isUnitPort_adc (p : Params) : isUnitPort p p.adcBus p.adcAddr := .inl ⟨rfl, rfl⟩

theorem isUnitPort_dac (p : Params) : isUnitPort p p.dacBus (dacAddr p) := .inr (.inl ⟨rfl, rfl⟩)

theorem isUnitPort_ee (p : Params) : isUnitPort p p.eeBus (eeAddr p) := .inr (.inr ⟨rfl, rfl⟩)

/-! ### The ADC unit's steps -/

theorem State.adcWriteReg_issues (s : State) (reg : BitVec 2) (v : Half) : Issues 1 0 s (s.adcWriteReg reg v).2 :=
  State.busWrite_issues (isUnitPort_adc _) (by simp [bytesOfHalf])

theorem State.adcReadReg_issues (s : State) (reg : BitVec 2) : Issues 2 0 s (s.adcReadReg reg).2 := by
  have hread : Issues 2 0 s _ := State.addressedRead_issues (bytes := [adcPointerByte reg]) (n := 2)
    (isUnitPort_adc s.params) (.inl rfl) (.inl rfl)
  unfold State.adcReadReg
  dsimp only
  split
  · split
    · exact hread
    · exact hread
  · exact (State.busWrite_refused_issues (isUnitPort_adc _) (.inl rfl) ‹_›).mono (by omega) (Nat.le_refl _)

theorem State.startSteps_issues (s : State) (c : BitVec 3) (md : BitVec 1) : Issues 1 0 s (s.startSteps c md).2 := by
  have hwrite : Issues 1 0 s (s.dropCache.adcWriteReg 0b01 (s.startWord c md)).2 :=
    (Issues.of_same (by simp) (by simp) (by simp)).trans (State.adcWriteReg_issues s.dropCache _ _)
  unfold State.startSteps
  split
  · exact (Issues.refl s).mono (by omega) (Nat.le_refl _)
  · dsimp only
    split
    · exact (hwrite.trans (State.armDeadline_issues _)).andThen (by simp) (by simp) (by simp)
    · exact hwrite.andThen (by simp) (by simp) (by simp)

/-- An attempt of a completion: the sleep and the configuration read back. -/
theorem State.attempt_issues (s : State) :
    Issues 2 1 s ((s.sleepUntil s.adc.deadline).adcReadReg 0b01).2 :=
  (State.sleepUntil_issues s s.adc.deadline).trans (State.adcReadReg_issues _ _)

/-- The attempts of a completion, with the conversion read in the last of them; and those that end before it. -/
theorem State.completeAttempts_issues (s : State) (c : BitVec 3) (tries : Nat) :
    Issues (2 * tries + 2) tries s (s.completeAttempts c tries).2 ∧
    ((s.completeAttempts c tries).1 = .error .pending ∨ (s.completeAttempts c tries).1 = .error .mismatch →
      Issues (2 * tries) tries s (s.completeAttempts c tries).2) := by
  induction tries generalizing s with
  | zero => exact ⟨(Issues.refl s).mono (by omega) (Nat.le_refl _), fun _ => Issues.refl s⟩
  | succ left ih =>
    have hone := s.attempt_issues
    unfold State.completeAttempts
    dsimp only
    split
    · exact ⟨(hone.andThen (by simp) (by simp) (by simp)).mono (by omega) (by omega), by simp⟩
    · split
      · have hend := hone.andThen (u := ((s.sleepUntil s.adc.deadline).adcReadReg 0b01).2.setPhase .error)
          (by simp) (by simp) (by simp)
        exact ⟨hend.mono (by omega) (by omega), fun _ => hend.mono (by omega) (by omega)⟩
      · split
        · have hconv := hone.trans (State.adcReadReg_issues ((s.sleepUntil s.adc.deadline).adcReadReg 0b01).2 0b00)
          split
          · exact ⟨(hconv.andThen (by simp) (by simp) (by simp)).mono (by omega) (by omega), by simp⟩
          · exact ⟨(hconv.andThen (by simp) (by simp) (by simp)).mono (by omega) (by omega), by simp⟩
        · split
          · obtain ⟨hall, hshort⟩ := ih ((s.sleepUntil s.adc.deadline).adcReadReg 0b01).2.armDeadline
            have hrearmed := hone.trans (State.armDeadline_issues _)
            exact ⟨(hrearmed.trans hall).mono (by omega) (by omega),
              fun h => (hrearmed.trans (hshort h)).mono (by omega) (by omega)⟩
          · obtain ⟨hall, hshort⟩ := ih ((s.sleepUntil s.adc.deadline).adcReadReg 0b01).2
            exact ⟨(hone.trans hall).mono (by omega) (by omega),
              fun h => (hone.trans (hshort h)).mono (by omega) (by omega)⟩

theorem State.completeSteps_issues (s : State) (c : BitVec 3) :
    Issues (2 * s.params.adcCompleteTries + 2) s.params.adcCompleteTries s (s.completeSteps c).2 ∧
    ((s.completeSteps c).1 = .error .pending ∨ (s.completeSteps c).1 = .error .mismatch →
      Issues (2 * s.params.adcCompleteTries) s.params.adcCompleteTries s (s.completeSteps c).2) := by
  rcases s.completeSteps_cases c with ⟨-, h⟩ | ⟨-, h⟩
  · rw [h]
    exact ⟨(Issues.refl s).mono (by omega) (by omega), by simp⟩
  · rw [h]
    exact State.completeAttempts_issues s c _

theorem State.startIfIdle_issues (s : State) (c : BitVec 3) : Issues 1 0 s (s.startIfIdle c).2 := by
  unfold State.startIfIdle
  split
  · exact (Issues.refl s).mono (by omega) (Nat.le_refl _)
  · exact State.startSteps_issues s c 1

theorem State.refreshSteps_issues (s : State) (c : BitVec 3) :
    Issues (1 + (2 * s.params.adcCompleteTries + 2)) s.params.adcCompleteTries s (s.refreshSteps c).2 := by
  have hstart := s.startIfIdle_issues c
  have hcomplete := ((s.startIfIdle c).2.completeSteps_issues c).1
  rw [hstart.params] at hcomplete
  have hboth := (hstart.trans hcomplete).mono (Nat.le_refl _) (Nat.le_of_eq (Nat.zero_add _))
  unfold State.refreshSteps
  split
  · rename_i hs
    rw [hs] at hstart
    exact hstart.mono (by omega) (by omega)
  · rename_i hs
    rw [hs] at hboth
    split
    · rename_i hc
      rwa [hc] at hboth
    · rename_i hc
      rw [hc] at hboth
      exact hboth.trans (State.armDeadline_issues _)

theorem State.cacheChecked_issues (s : State) (c : BitVec 3) (force : Bool) :
    Issues 0 0 s (s.cacheChecked c force) := by
  unfold State.cacheChecked
  split
  · exact s.readClock_issues
  · exact Issues.refl s

/-! ### The DAC unit's steps -/

theorem State.dacWriteSteps_issues (s : State) (c : Fin 4) (data : Int) : Issues 1 0 s (s.dacWriteSteps c data).2 :=
  State.busWrite_issues (isUnitPort_dac _) (by simp [dacFrame])

/-! ### The EEPROM unit's steps -/

theorem State.probe_issues (s : State) : Issues 1 1 s s.probe.2 :=
  (State.sleepUntil_issues s s.ee.readyTime).trans (State.busWrite_issues (isUnitPort_ee _) (by simp))

theorem State.gate_issues (s : State) (tries : Nat) : Issues tries tries s (s.gate tries).2 := by
  induction tries generalizing s with
  | zero => exact Issues.refl s
  | succ left ih =>
    unfold State.gate
    dsimp only
    split
    · exact s.probe_issues.mono (by omega) (by omega)
    · split
      · exact ((s.probe_issues.trans (State.armReadyTime_issues _)).trans (ih _)).mono (by omega) (by omega)
      · exact s.probe_issues.mono (by omega) (by omega)

/-- A page write of a whole page, or of none of its bytes. -/
theorem State.writePageRaw_issues (s : State) (id : Nat) {content : List Byte}
    (hlength : content.length = 32 ∨ content.length = 0) :
    Issues (s.params.eeWriteTries + 1) s.params.eeWriteTries s (s.writePageRaw id content).2 := by
  have hgate := s.gate_issues s.params.eeWriteTries
  have hwrite : Issues (s.params.eeWriteTries + 1) s.params.eeWriteTries s _ :=
    hgate.trans (State.busWrite_issues (s := (s.gate s.params.eeWriteTries).2) (bus := s.params.eeBus)
      (addr := eeAddr s.params) (bytes := pageAddrBytes s.params id ++ content)
      (by rw [hgate.params]; exact isUnitPort_ee _)
      (by rcases hlength with h | h <;> simp [pageAddrBytes_eq, bigEndianBytes, h]))
  unfold State.writePageRaw
  dsimp only
  split
  · split
    · exact hwrite.trans (State.armReadyTime_issues _)
    · exact hwrite
  · exact hgate.mono (by omega) (Nat.le_refl _)

theorem State.formatPages_issues (s : State) {r : List Byte} (hlength : r.length = 32) (failed : BitVec 128)
    (ids : List Nat) :
    Issues (ids.length * (s.params.eeWriteTries + 1)) (ids.length * s.params.eeWriteTries) s
      (s.formatPages r failed ids).2 := by
  induction ids generalizing s failed with
  | nil => exact (Issues.refl s).mono (Nat.zero_le _) (Nat.zero_le _)
  | cons id rest ih =>
    have hpage := s.writePageRaw_issues id (.inl hlength)
    have hrest := ih (s.writePageRaw id r).2 (failedMask failed id (s.writePageRaw id r).1)
    rw [hpage.params] at hrest
    refine (hpage.trans hrest).mono (Nat.le_of_eq ?_) (Nat.le_of_eq ?_) <;> rw [List.length_cons] <;> ring

theorem initContent_length (p : Params) (id : Nat) :
    (initContent p id).length = 32 ∨ (initContent p id).length = 0 := by
  unfold initContent
  split
  · exact .inl Vector.length_toList
  · exact .inr rfl

theorem signature_length (p : Params) : (signature p).length = 11 := by
  simp [signature_eq]

theorem State.drawBytes_length (s : State) {n : Nat} (h : n ≤ 32) : (s.drawBytes n).length = n :=
  drawnBytes_length _ _ h

theorem State.initPage_length (s : State) (id : Nat) :
    (s.initPage id).1.length = 32 ∨ (s.initPage id).1.length = 0 := by
  unfold State.initPage
  split
  · exact .inl (by rw [List.length_append, signature_length, s.drawBytes_length (by omega)])
  · exact initContent_length _ _

theorem State.initPage_issues (s : State) (id : Nat) : Issues 0 0 s (s.initPage id).2 := by
  unfold State.initPage
  split
  · exact s.afterDraw_issues
  · exact Issues.refl s

theorem State.initPages_issues (s : State) (failed : BitVec 128) (ids : List Nat) :
    Issues (ids.length * (s.params.eeWriteTries + 1)) (ids.length * s.params.eeWriteTries) s
      (s.initPages failed ids).2 := by
  induction ids generalizing s failed with
  | nil => exact (Issues.refl s).mono (Nat.zero_le _) (Nat.zero_le _)
  | cons id rest ih =>
    have hpage := (s.initPage_issues id).trans ((s.initPage id).2.writePageRaw_issues id (s.initPage_length id))
    have hrest := ih ((s.initPage id).2.writePageRaw id (s.initPage id).1).2
      (failedMask failed id ((s.initPage id).2.writePageRaw id (s.initPage id).1).1)
    rw [hpage.params] at hrest
    rw [(s.initPage_issues id).params] at hpage
    refine (hpage.trans hrest).mono (Nat.le_of_eq ?_) (Nat.le_of_eq ?_) <;> rw [List.length_cons] <;> ring

theorem State.readPageRaw_issues (s : State) (id : Nat) : Issues 2 1 s (s.readPageRaw id).2 := by
  have hwait : Issues 0 1 s s.waitForRead := by
    unfold State.waitForRead
    split
    · exact State.sleepUntil_issues s _
    · exact (Issues.refl s).mono (Nat.le_refl _) (by omega)
  refine (hwait.trans (?_ : Issues 2 0 _ _)).mono (by omega) (Nat.le_refl _)
  have hread : Issues 2 0 s.waitForRead _ := State.addressedRead_issues (n := 32)
    (bytes := pageAddrBytes s.waitForRead.params id) (isUnitPort_ee _)
    (.inr (by simp [pageAddrBytes_eq, bigEndianBytes])) (.inr rfl)
  unfold State.readPageRaw State.readPageTransfers
  dsimp only
  split
  · split
    · exact hread
    · exact hread
  · exact (State.busWrite_refused_issues (isUnitPort_ee _) (.inr (by simp [pageAddrBytes_eq, bigEndianBytes]))
      ‹_›).mono (by omega) (Nat.le_refl _)

end Sys2Proof.Machine

/-! PROOF. How an operation ends (spec/60_exceptions.md R251, R252), in every environment: the steps of ADC.READC for
each way they can go, and for every operation the stretch of events before its one result record. From it follow the
statements about the history and the clock that hold of every step. -/

namespace Sys2Proof.Machine

/-! ### All that the steps of ADC.READC can do (R176) -/

/-- How a completion for channel `c` that found `a` ends: it has read the conversion, failed on the bus or on the
channel, or left it pending, its deadline moved or not (R173). -/
def AdcState.CompletionEnds (a : AdcState) (c : BitVec 3) (r : Except ErrKind Value) (b : AdcState) : Prop :=
  ∃ d : Timestamp,
    (∃ v, r = .ok (.count v) ∧
      b = { a with phase := .ready, deadline := d, lastRead := v, cacheValid := true, cacheChannel := c }) ∨
    ((r = .error .bus ∨ r = .error .mismatch) ∧ b = { a with phase := .error, deadline := d }) ∨
    (r = .error .pending ∧ b = { a with deadline := d })

/-- The configuration write of the steps of ADC.START, with its result (R172). -/
def State.startWrite (s : State) (c : BitVec 3) (md : BitVec 1) (r : Int) : Event :=
  .write s.params.adcBus s.params.adcAddr (0x01 :: bigEndianBytes (s.startWord c md).toNat) false r

theorem State.startWrite_eq_startEvent (s : State) (ch mode : Nat) (r : Int) :
    s.startWrite (muxOf ch) (modeOf mode) r = s.startEvent ch mode r := rfl

/-- The state in which ADC.READC's completion begins: the conversion was pending, or a single-shot START of its channel
was taken. -/
def State.Converts (s : State) (c : BitVec 3) (t : State) : Prop :=
  (s.adc.phase = .converting ∧ t = s) ∨
  (s.adc.phase ≠ .converting ∧ QuietAdc s t ∧ t.history = s.startWrite c 1 3 :: s.history ∧
    ∃ d, t.adc = { s.adc with phase := .converting, cacheValid := false, deadline := d })

theorem State.Converts.phase {s t : State} {c : BitVec 3} (h : s.Converts c t) : t.adc.phase = .converting := by
  rcases h with ⟨hphase, rfl⟩ | ⟨-, -, -, d, hadc⟩
  · exact hphase
  · rw [hadc]

theorem State.Converts.quietAdc {s t : State} {c : BitVec 3} (h : s.Converts c t) : QuietAdc s t := by
  rcases h with ⟨-, rfl⟩ | ⟨-, hquiet, -⟩
  · exact (Quiet.refl t).toAdc
  · exact hquiet

/-- Where the embedded start is not refused by the bus, a conversion of the block's own is pending. -/
theorem State.startIfIdle_cases (s : State) (c : BitVec 3) :
    (s.adc.phase ≠ .converting ∧ QuietAdc s (s.startIfIdle c).2 ∧ (s.startIfIdle c).1 = .error .bus ∧
      (s.startIfIdle c).2.adc = { s.adc with phase := .error, cacheValid := false } ∧
      ∃ r : Int, r ≠ 3 ∧ (s.startIfIdle c).2.history = s.startWrite c 1 r :: s.history) ∨
    ((∃ v, (s.startIfIdle c).1 = .ok v) ∧ s.Converts c (s.startIfIdle c).2) := by
  by_cases hphase : s.adc.phase = .converting
  · rw [State.startIfIdle, if_pos hphase]
    exact .inr ⟨⟨_, rfl⟩, .inl ⟨hphase, rfl⟩⟩
  · rw [State.startIfIdle, if_neg hphase]
    obtain ⟨hbusy, -⟩ | ⟨-, hquiet, r, hhist, ⟨rfl, hok, d, hadc⟩ | ⟨hr, herr, hadc⟩⟩ := s.startSteps_cases c 1
    · exact absurd hbusy hphase
    · exact .inr ⟨⟨_, hok⟩, .inr ⟨hphase, hquiet, hhist, d, hadc⟩⟩
    · exact .inl ⟨hphase, hquiet, herr, hadc, r, hr, hhist⟩

/-- All that a refresh of ADC.READC can do: its start is not taken, or a completion of its channel ends. -/
theorem State.refreshSteps_cases (s : State) (c : BitVec 3) :
    (s.adc.phase ≠ .converting ∧ QuietAdc s (s.refreshSteps c).2 ∧ (s.refreshSteps c).1 = .error .bus ∧
      (s.refreshSteps c).2.adc = { s.adc with phase := .error, cacheValid := false } ∧
      ∃ r : Int, r ≠ 3 ∧ (s.refreshSteps c).2.history = s.startWrite c 1 r :: s.history) ∨
    ∃ t, s.Converts c t ∧ QuietAdc t (s.refreshSteps c).2 ∧
      t.adc.CompletionEnds c (s.refreshSteps c).1 (s.refreshSteps c).2.adc := by
  rcases hstart : s.startIfIdle c with ⟨r1, t⟩
  obtain hfail | ⟨⟨v, hok⟩, hconv⟩ := s.startIfIdle_cases c
  · rw [hstart] at hfail
    obtain ⟨hphase, hquiet, rfl, hadc, hhist⟩ := hfail
    rw [State.refreshSteps, hstart]
    exact .inl ⟨hphase, hquiet, rfl, hadc, hhist⟩
  · rw [hstart] at hok hconv
    obtain rfl : r1 = .ok v := hok
    refine .inr ⟨t, hconv, ?_⟩
    obtain ⟨hquiet, hends⟩ := t.completeAttempts_cases c t.params.adcCompleteTries
    rcases hcomplete : t.completeAttempts c t.params.adcCompleteTries with ⟨r2, u⟩
    rw [hcomplete] at hquiet hends
    rw [State.refreshSteps, hstart]
    simp only [State.completeSteps, if_pos hconv.phase, hcomplete]
    obtain ⟨d, ⟨w, rfl, hadc⟩ | ⟨herr, hadc⟩ | ⟨rfl, hadc⟩⟩ := hends
    · refine ⟨hquiet.trans u.armDeadline_quietAdc, timeAfter u.readClock.env.clock (latencyOf u.params u.adc.dr),
        .inl ⟨w, ?_, ?_⟩⟩
      · exact congrArg (fun a : AdcState => Except.ok (Value.count a.lastRead)) hadc
      · have hkept : u.adc = _ := hadc
        change u.armDeadline.adc = _
        rw [State.armDeadline_adc, hkept]
    · obtain rfl | rfl := herr
      · exact ⟨hquiet, d, .inr (.inl ⟨.inl rfl, hadc⟩)⟩
      · exact ⟨hquiet, d, .inr (.inl ⟨.inr rfl, hadc⟩)⟩
    · exact ⟨hquiet, d, .inr (.inr ⟨rfl, hadc⟩)⟩

/-! ### The result record of an operation (R251, R252) -/

/-- The result records an operation may end with: success, or a kind it reports, with the value its table gives. -/
inductive Answers (i : Instr) : Result → Prop
  | success (v : Value) : Answers i (Result.success v)
  | failure {e : ErrKind} (reported : e ∈ reportable i) (failed : e ≠ .none) (noMask : e ≠ .partialFail)
      (noCheck : i ≠ .eeChecksig) : Answers i (Result.failure e (.nat 0))
  | check {e : ErrKind} (isCheck : i = .eeChecksig) (reported : e ∈ reportable i) (failed : e ≠ .none)
      (noMask : e ≠ .partialFail) : Answers i (Result.failure e (.bool false))
  | pages {m : BitVec 128} (isBulk : i = .eeFormat ∨ i = .eeInit) (someFailed : m ≠ 0) :
      Answers i (Result.failure .partialFail (.mask m))

theorem none_mem_reportable (i : Instr) : ErrKind.none ∈ reportable i := by
  cases i <;> exact List.mem_cons_self

/-- What every operation that ends has done: it issued a stretch of events within its bounds, and then wrote one result
record that it may report. -/
def Performs (i : Instr) (s t : State) : Prop :=
  ∃ u r, t = u.finish r ∧ Issues (mostTransfers s.params i) (mostSleeps s.params i) s u ∧ Answers i r

section Ends

variable {i : Instr} {s u : State} {n k : Nat} (hissues : Issues n k s u)
include hissues

theorem Performs.ret (v : Value) (hn : n ≤ mostTransfers s.params i := by simp [mostTransfers])
    (hk : k ≤ mostSleeps s.params i := by simp [mostSleeps]) : Performs i s (u.ret v) :=
  ⟨u, _, rfl, hissues.mono hn hk, .success v⟩

theorem Performs.raise {e : ErrKind} (hn : n ≤ mostTransfers s.params i := by simp [mostTransfers])
    (hk : k ≤ mostSleeps s.params i := by simp [mostSleeps]) (reported : e ∈ reportable i := by simp [reportable])
    (failed : e ≠ .none := by simp) (noMask : e ≠ .partialFail := by simp) (noCheck : i ≠ .eeChecksig := by simp) :
    Performs i s (u.raise e (.nat 0)) :=
  ⟨u, _, rfl, hissues.mono hn hk, .failure reported failed noMask noCheck⟩

theorem Performs.conclude {r : Except ErrKind Value}
    (hr : ∀ e, r = .error e → e ∈ reportable i ∧ e ≠ .none ∧ e ≠ .partialFail)
    (hn : n ≤ mostTransfers s.params i := by simp [mostTransfers])
    (hk : k ≤ mostSleeps s.params i := by simp [mostSleeps]) (noCheck : i ≠ .eeChecksig := by simp) :
    Performs i s (u.conclude r) := by
  cases r with
  | ok v => exact .ret hissues v hn hk
  | error e =>
    obtain ⟨reported, failed, noMask⟩ := hr e rfl
    exact .raise hissues hn hk reported failed noMask noCheck

end Ends

/-! ### Each operation's ending -/

theorem performs_adcStart (s : State) (ch mode : Nat) :
    Performs (.adcStart ch mode) s (endOperation (s.startSteps (muxOf ch) (modeOf mode))) := by
  refine .conclude (s.startSteps_issues _ _) fun e he => ?_
  obtain ⟨-, h⟩ | ⟨-, -, r, -, ⟨-, h, -⟩ | ⟨-, h, -⟩⟩ := s.startSteps_cases (muxOf ch) (modeOf mode)
  · rw [h] at he; cases he; simp [reportable]
  · rw [h] at he; cases he
  · rw [h] at he; cases he; simp [reportable]

/-- The kinds of a completion that ends in failure. -/
theorem AdcState.CompletionEnds.error {a b : AdcState} {c : BitVec 3} {r : Except ErrKind Value}
    (h : a.CompletionEnds c r b) {e : ErrKind} (he : r = .error e) : e = .bus ∨ e = .mismatch ∨ e = .pending := by
  subst he
  obtain ⟨d, ⟨v, hr, -⟩ | ⟨hr | hr, -⟩ | ⟨hr, -⟩⟩ := h <;> cases hr <;> simp

theorem performs_adcComplete (s : State) (ch : Nat) :
    Performs (.adcComplete ch) s (endOperation (s.completeSteps (muxOf ch))) := by
  refine .conclude (s.completeSteps_issues _).1 fun e he => ?_
  obtain ⟨-, h⟩ | ⟨-, h⟩ := s.completeSteps_cases (muxOf ch)
  · rw [h] at he; cases he; simp [reportable]
  · rw [h] at he
    obtain ⟨-, hends⟩ := s.completeAttempts_cases (muxOf ch) s.params.adcCompleteTries
    obtain rfl | rfl | rfl := AdcState.CompletionEnds.error hends he <;> simp [reportable]

theorem performs_adcReadc (s : State) (ch : Nat) (force : Bool) :
    Performs (.adcReadc ch force) s
      (if s.cacheHit (muxOf ch) force then (s.cacheChecked (muxOf ch) force).ret (.count s.adc.lastRead)
        else endOperation ((s.cacheChecked (muxOf ch) force).refreshSteps (muxOf ch))) := by
  have hchecked := s.cacheChecked_issues (muxOf ch) force
  split
  · exact .ret hchecked _
  · have hrefresh := State.refreshSteps_issues (s.cacheChecked (muxOf ch) force) (muxOf ch)
    rw [hchecked.params] at hrefresh
    refine .conclude ((hchecked.trans hrefresh).mono (Nat.le_of_eq (Nat.zero_add _)) (Nat.le_of_eq (Nat.zero_add _)))
      fun e he => ?_
    obtain ⟨-, -, h, -⟩ | ⟨t, -, -, hends⟩ := State.refreshSteps_cases (s.cacheChecked (muxOf ch) force) (muxOf ch)
    · rw [h] at he; cases he; simp [reportable]
    · obtain rfl | rfl | rfl := hends.error he <;> simp [reportable]

theorem performs_dacWrite (s : State) (c : Fin 4) (data : Int) :
    Performs (.dacWrite c.val data) s (endOperation (s.dacWriteSteps c data)) := by
  refine .conclude (s.dacWriteSteps_issues c data) fun e he => ?_
  unfold State.dacWriteSteps at he
  dsimp only at he
  split at he
  · cases he
  · cases he; simp [reportable]

theorem performs_eeRead (s : State) (id : Nat) : Performs (.eeRead id) s (s.eeReadPage id) := by
  have hissues := s.readPageRaw_issues id
  unfold State.eeReadPage
  split
  · rename_i hread
    rw [hread] at hissues
    exact .ret (hissues.trans (State.fillPbuf_issues ..)) _
  · rename_i hread
    rw [hread] at hissues
    exact .raise hissues
  · rename_i hread
    rw [hread] at hissues
    exact .raise ((hissues.trans (State.afterDraw_issues _)).trans (State.fillPbuf_issues ..))

/-- The kinds of a page write. -/
theorem State.writePageRaw_kind (s : State) (id : Nat) (p : List Byte) :
    (s.writePageRaw id p).1 = .none ∨ (s.writePageRaw id p).1 = .bus ∨ (s.writePageRaw id p).1 = .notReady := by
  unfold State.writePageRaw
  dsimp only
  split
  · split <;> simp
  · simp

theorem performs_eeWrite (s : State) (id : Nat) {p : List Byte} (hp : p.length = 32) :
    Performs (.eeWrite id) s (endPageWrite (s.writePageRaw id p)) := by
  have hissues := s.writePageRaw_issues id (.inl hp)
  unfold endPageWrite
  split
  · exact .ret hissues _
  · rename_i hfailed
    obtain h | h | h := s.writePageRaw_kind id p
    · exact absurd h hfailed
    · rw [h]
      exact .raise hissues
    · rw [h]
      exact .raise hissues

theorem performs_eeReady (s : State) (tries : Nat) : Performs (.eeReady tries) s (endReady (s.gate tries)) := by
  have hissues := s.gate_issues tries
  unfold endReady
  split
  · exact .ret hissues _
  · exact .raise hissues

/-- The end of EE.FORMAT and EE.INIT. -/
theorem Performs.bulk {i : Instr} {s : State} {f : BitVec 128 × State} (hi : i = .eeFormat ∨ i = .eeInit)
    (hissues : Issues (mostTransfers s.params i) (mostSleeps s.params i) s f.2) : Performs i s (endBulk f) := by
  unfold endBulk
  split
  · exact .ret hissues _
  · exact ⟨f.2, _, rfl, hissues, .pages hi ‹_›⟩

theorem performs_eeFormat (s : State) :
    Performs .eeFormat s (endBulk (s.afterDraw.formatPages (s.drawBytes 32) 0 (List.range s.params.eePages))) := by
  refine .bulk (.inl rfl) ?_
  have hpages := State.formatPages_issues s.afterDraw (s.drawBytes_length (Nat.le_refl 32)) 0
    (List.range s.params.eePages)
  rw [List.length_range] at hpages
  exact (s.afterDraw_issues.trans hpages).mono (Nat.le_of_eq (Nat.zero_add _)) (Nat.le_of_eq (Nat.zero_add _))

theorem performs_eeInit (s : State) :
    Performs .eeInit s (endBulk (s.initPages 0 (List.range s.params.eePages))) := by
  refine .bulk (.inr rfl) ?_
  have hpages := State.initPages_issues s 0 (List.range s.params.eePages)
  rwa [List.length_range] at hpages

theorem performs_eeChecksig (s : State) : Performs .eeChecksig s s.checkSignature := by
  have hissues := s.readPageRaw_issues s.params.eeSigPage
  unfold State.checkSignature
  split
  · rename_i hread
    rw [hread] at hissues
    split
    · exact .ret hissues _
    · exact ⟨_, _, rfl, hissues, .check rfl (by simp [reportable]) (by simp) (by simp)⟩
  · rename_i hread
    rw [hread] at hissues
    exact ⟨_, _, rfl, hissues, .check rfl (by simp [reportable]) (by simp) (by simp)⟩

/-- Every operation that ends has issued its stretch of events and written one result record. The operations not named
return at once. -/
theorem exec_performs {i : Instr} {s t : State} (h : exec i s = .next t) : Performs i s t := by
  cases i with
  | adcConfig pga dr cmode cpol clat cque =>
    by_cases hbusy : s.adc.phase = .converting
    · cases (exec_adcConfig_converting hbusy pga dr cmode cpol clat cque).symm.trans h
      exact .raise (Issues.refl s)
    · cases (exec_adcConfig_not_converting hbusy pga dr cmode cpol clat cque).symm.trans h
      exact .ret (Issues.of_adc ..) _
  | adcStart ch mode => cases h; exact performs_adcStart s ch mode
  | adcComplete ch => cases h; exact performs_adcComplete s ch
  | adcReadc ch force => cases h; exact performs_adcReadc s ch force
  | dacFrame ch pd gain vref data =>
    obtain ⟨c, rfl⟩ | hnone := eq_channel_or_ge ch
    · cases (exec_dacFrame_channel s c pd gain vref data).symm.trans h
      exact .ret (Issues.refl s) _
    · cases (exec_dacFrame_sentinel s pd gain vref data hnone).symm.trans h
      exact .raise (Issues.refl s)
  | dacSetcfg ch pd gain vref =>
    obtain ⟨c, rfl⟩ | hnone := eq_channel_or_ge ch
    · cases (exec_dacSetcfg_channel s c pd gain vref).symm.trans h
      exact .ret (State.setDacChannel_issues ..) _
    · cases (exec_dacSetcfg_sentinel s pd gain vref hnone).symm.trans h
      exact .raise (Issues.refl s)
  | dacWrite ch data =>
    obtain ⟨c, rfl⟩ | hnone := eq_channel_or_ge ch
    · cases (exec_dacWrite_channel s c data).symm.trans h
      exact performs_dacWrite s c data
    · cases (exec_dacWrite_sentinel s data hnone).symm.trans h
      exact .raise (Issues.refl s)
  | eeRead id =>
    rcases Nat.lt_or_ge id s.params.eePages with hid | hid
    · cases (exec_eeRead_of_lt hid).symm.trans h
      exact performs_eeRead s id
    · cases (exec_eeRead_of_ge hid).symm.trans h
      exact .raise (Issues.refl s)
  | eeWrite id =>
    rcases Nat.lt_or_ge id s.params.eePages with hid | hid
    · cases hread : s.pbuf.readBytes 0 pbufSize with
      | none => cases (exec_eeWrite_of_unwritten hid hread).symm.trans h
      | some p =>
        cases (exec_eeWrite_of_written hid hread).symm.trans h
        exact performs_eeWrite s id (Memory.readBytes_length _ _ _ _ hread)
    · cases (exec_eeWrite_of_ge hid).symm.trans h
      exact .raise (Issues.refl s)
  | eeReady tries => cases h; exact performs_eeReady s tries
  | eeFormat => cases h; exact performs_eeFormat s
  | eeInit => cases h; exact performs_eeInit s
  | eeChecksig => cases h; exact performs_eeChecksig s
  | _ => cases h; exact .ret (Issues.refl s) _

end Sys2Proof.Machine

/-! PROOF. The statements about the result, the history and the clock that hold of every operation and every step
(spec/60_exceptions.md R251, R252, R262; spec/20_memory.md R61, R69, R74; spec/70_reset_and_hazards.md R291). -/

namespace Sys2Proof.Machine

/-! ### The result of an operation -/

theorem Answers.consistent {i : Instr} {r : Result} (h : Answers i r) : r.ok = true ↔ r.err = .none := by
  cases h with
  | success v => exact ⟨fun _ => rfl, fun _ => rfl⟩
  | failure _ failed => exact ⟨fun h => Bool.noConfusion h, fun h => absurd h failed⟩
  | check _ _ failed => exact ⟨fun h => Bool.noConfusion h, fun h => absurd h failed⟩
  | pages => exact ⟨fun h => Bool.noConfusion h, fun h => ErrKind.noConfusion h⟩

theorem Answers.reported {i : Instr} {r : Result} (h : Answers i r) : r.err ∈ reportable i := by
  cases h with
  | success v => exact none_mem_reportable i
  | failure reported => exact reported
  | check _ reported => exact reported
  | pages isBulk => obtain rfl | rfl := isBulk <;> simp [Result.failure, reportable]

/-- Settles O55: the one result record is what the operation's end adds to its stretch of events. -/
theorem operationsEndWithOneResult : Obligations.OperationsEndWithOneResult := by
  intro i s t h
  obtain ⟨u, r, rfl, hissues, hanswer⟩ := exec_performs h
  obtain ⟨evs, hhist, hstretch, -⟩ := hissues.events
  exact ⟨hanswer.consistent, evs, congrArg (List.cons (Event.result r)) hhist, hstretch.ne_result⟩

/-- Settles O57: each way of answering has its kind in the operation's column and the value its kind is raised with. -/
theorem reportedErrorKinds : Obligations.ReportedErrorKinds := by
  refine ⟨fun i s t h => ?_, rfl⟩
  obtain ⟨u, r, rfl, -, hanswer⟩ := exec_performs h
  refine ⟨hanswer.reported, ?_⟩
  rw [State.finish_res]
  cases hanswer with
  | success v => exact ⟨fun h => Bool.noConfusion h, fun h => Bool.noConfusion h, fun h => ErrKind.noConfusion h⟩
  | failure _ _ noMask noCheck => exact ⟨fun _ _ _ => rfl, fun _ h => absurd h noCheck, fun h => absurd h noMask⟩
  | check isCheck _ _ noMask => exact ⟨fun _ _ h => absurd isCheck h, fun _ _ => rfl, fun h => absurd h noMask⟩
  | pages isBulk someFailed =>
    refine ⟨fun _ h => absurd rfl h, fun _ h => ?_, fun _ => ⟨_, someFailed, rfl⟩⟩
    obtain rfl | rfl := isBulk <;> cases h

/-! ### How much an operation does on the bus -/

theorem Issues.bounds_of_result {n k : Nat} {r : Result} {s u : State} {evs : List Event} (h : Issues n k s u)
    (hevs : (u.finish r).history = evs ++ s.history) : (transfers evs).length ≤ n ∧ (sleeps evs).length ≤ k := by
  obtain ⟨issued, hhist, -, htransfers, hsleeps⟩ := h.events
  rw [State.finish_history, hhist, ← List.cons_append] at hevs
  obtain rfl := List.append_cancel_right hevs
  exact ⟨htransfers, hsleeps⟩

/-- Settles O60: the bounds are those of the operation's steps, which its result does not add to; a completion that
ends PENDING or in MISMATCH reads no conversion. -/
theorem transactionsAreBounded : Obligations.TransactionsAreBounded := by
  intro i s t evs h hevs
  obtain ⟨u, r, rfl, hissues, -⟩ := exec_performs h
  obtain ⟨htransfers, hsleeps⟩ := Issues.bounds_of_result hissues hevs
  refine ⟨htransfers, hsleeps, ?_⟩
  rintro ⟨ch, rfl⟩ hkind
  have hend : u.finish r = (s.completeSteps (muxOf ch)).2.conclude (s.completeSteps (muxOf ch)).1 :=
    (Host.Outcome.next.inj h).symm
  rw [hend] at hevs hkind
  cases hsteps : (s.completeSteps (muxOf ch)).1 with
  | ok v =>
    rw [hsteps] at hkind
    rcases hkind with hkind | hkind <;> cases hkind
  | error e =>
    rw [hsteps] at hevs hkind
    have hshort : e = .pending ∨ e = .mismatch := hkind
    refine (Issues.bounds_of_result ((s.completeSteps_issues _).2 ?_) hevs).1
    rw [hsteps]
    exact hshort.imp (congrArg Except.error) (congrArg Except.error)

/-! ### Every step -/

theorem decode_eq_reserved {op : Operation} (h : decode op = .reserved) : codeFormat op.code = none := by
  cases hf : codeFormat op.code with
  | none => rfl
  | some f =>
    cases hfit : recordFits (formatKinds f) op.record with
    | true =>
      obtain ⟨i, hi⟩ := exists_decode_of_recordFits hf hfit
      cases hi.symm.trans h
    | false => cases (decode_of_not_recordFits hf hfit).symm.trans h

/-- All that a step that goes on can be: an idle one, an operation, the answer to a reserved code, or a write of the
host to PBUF. -/
theorem step_cases {s t : State} (h : step s = .next t) :
    s.faultMark = false ∧
    ((s.port = [] ∧ t = s) ∨
      (∃ op rest i, s.port = .present op :: rest ∧ codeFormat op.code ≠ none ∧
        exec i { s with port := rest } = .next t) ∨
      (∃ op rest, s.port = .present op :: rest ∧ codeFormat op.code = none ∧
        t = State.refuseCode { s with port := rest }) ∨
      (∃ a v rest, s.port = .memWrite a v :: rest ∧ a + v.length ≤ 32 ∧
        t = State.setPbuf { s with port := rest } (s.pbuf.writeBytes a v))) := by
  have hmark : s.faultMark = false := Bool.eq_false_iff.2 fun hmark => by
    cases (step_of_faultMark hmark).symm.trans h
  refine ⟨hmark, ?_⟩
  rcases hport : s.port with _ | ⟨⟨op⟩ | ⟨a, v⟩, rest⟩
  · cases (step_idle hmark hport).symm.trans h
    exact .inl ⟨rfl, rfl⟩
  · cases hd : decode op with
    | instr i =>
      refine .inr (.inl ⟨op, rest, i, rfl, fun hnone => ?_, (step_of_decode_instr hmark hport hd).symm.trans h⟩)
      cases (decode_of_codeFormat_none hnone).symm.trans hd
    | reserved =>
      cases (step_of_decode_reserved hmark hport hd).symm.trans h
      exact .inr (.inr (.inl ⟨op, rest, rfl, decode_eq_reserved hd, rfl⟩))
    | wrongShape => cases (step_of_decode_wrongShape hmark hport hd).symm.trans h
  · have hstep := (step_memWrite hmark hport).symm.trans h
    rcases Nat.lt_or_ge 32 (a + v.length) with hout | hin
    · cases (State.memWrite_of_gt hout).symm.trans hstep
    · cases (State.memWrite_of_le hin).symm.trans hstep
      exact .inr (.inr (.inr ⟨a, v, rest, rfl, hin, rfl⟩))

/-- What a step adds to the history: a stretch of events, and a result record where an operation or a reserved code was
presented. -/
theorem step_issues {s t : State} (h : step s = .next t) :
    ∃ n k u, Issues n k s u ∧ t.env = u.env ∧ (t.history = u.history ∨ ∃ r, t.history = .result r :: u.history) := by
  obtain ⟨-, ⟨-, rfl⟩ | ⟨op, rest, i, -, -, hexec⟩ | ⟨op, rest, -, -, rfl⟩ | ⟨a, v, rest, -, -, rfl⟩⟩ := step_cases h
  · exact ⟨0, 0, t, Issues.refl t, rfl, .inl rfl⟩
  · obtain ⟨u, r, rfl, hissues, -⟩ := exec_performs hexec
    have htaken : Issues 0 0 s { s with port := rest } := .of_same rfl rfl rfl
    exact ⟨_, _, u, htaken.trans hissues, rfl, .inr ⟨r, rfl⟩⟩
  · exact ⟨0, 0, s, Issues.refl s, rfl, .inr ⟨_, rfl⟩⟩
  · exact ⟨0, 0, s, Issues.refl s, rfl, .inl rfl⟩

/-- Settles O54: neither a stretch of events nor a result record sets the clock back. -/
theorem clockNeverGoesBack : Obligations.ClockNeverGoesBack := by
  intro s t h
  obtain ⟨n, k, u, hissues, henv, -⟩ := step_issues h
  rw [henv]
  exact hissues.clock

/-- Settles O58: a stretch of events has each taken address followed by its read, and a result record holds no bus. -/
theorem holdIsOnlyBeforeRead : Obligations.HoldIsOnlyBeforeRead := by
  refine ⟨fun newer older bus addr bytes r h => ?_, fun s t hs h => ?_⟩
  · simp [State.reset] at h
  · obtain ⟨n, k, u, hissues, -, hhist⟩ := step_issues h
    obtain ⟨evs, hissued, hstretch, -⟩ := hissues.events
    have hu : HoldIsFollowed u.history := hissued ▸ hstretch.holdIsFollowed hs
    obtain hsame | ⟨r, hresult⟩ := hhist
    · rwa [hsame]
    · rw [hresult]
      exact hu.cons fun _ _ _ _ => Event.noConfusion

/-- Settles O59: the events of a stretch are lawful, and a result record is no transaction. -/
theorem transactionsAreLawful : Obligations.TransactionsAreLawful := by
  intro s t h
  obtain ⟨n, k, u, hissues, -, hhist⟩ := step_issues h
  obtain ⟨evs, hissued, hstretch, -⟩ := hissues.events
  obtain hsame | ⟨r, hresult⟩ := hhist
  · exact ⟨evs, hsame.trans hissued, hstretch.lawful⟩
  · exact ⟨.result r :: evs, hresult.trans (congrArg (List.cons (Event.result r)) hissued),
      List.forall_mem_cons.2 ⟨trivial, hstretch.lawful⟩⟩

end Sys2Proof.Machine

/-! PROOF. Which state an operation writes (spec/10_state.md R23 to R34, the column "written by"), in every environment,
and what every step keeps: the invariant and the marks (spec/60_exceptions.md R258, R267). -/

namespace Sys2Proof.Machine

/-! ### The state that each unit's steps write -/

/-- The result record an operation ends with whose steps gave `r` (R251). -/
def Result.ofSteps : Except ErrKind Value → Result
  | .ok v => Result.success v
  | .error e => Result.failure e (.nat 0)

theorem State.conclude_eq_finish (s : State) (r : Except ErrKind Value) :
    s.conclude r = s.finish (Result.ofSteps r) := by
  cases r <;> rfl

/-- The operations that pass the write-ready gate (R222 to R225). -/
def PassesGate (i : Instr) : Prop :=
  (∃ id, i = .eeWrite id) ∨ (∃ tries, i = .eeReady tries) ∨ i = .eeFormat ∨ i = .eeInit

/-- All that an operation can have written before its result record `r`: nothing but the environment and the history, or
the state of its unit. -/
inductive Writes (s : State) : Instr → State → Result → Prop
  | nothing {i : Instr} {u : State} {r : Result} (quiet : Quiet s u) : Writes s i u r
  | configured {pga dr cmode cpol clat cque : Nat} {r : Result} (free : s.adc.phase ≠ .converting) :
      Writes s (.adcConfig pga dr cmode cpol clat cque) { s with adc := s.adc.configured pga dr cmode cpol clat cque } r
  | started {i : Instr} {u : State} {r : Result} {p : Phase} {d : Timestamp} (isStart : IsAdcStart i ∨ IsAdcReadc i)
      (quiet : QuietAdc s u) (adc : u.adc = { s.adc with phase := p, cacheValid := false, deadline := d }) :
      Writes s i u r
  | completed {ch : Nat} {u : State} {r : Except ErrKind Value} (quiet : QuietAdc s u)
      (ends : s.adc.CompletionEnds (muxOf ch) r u.adc) : Writes s (.adcComplete ch) u (Result.ofSteps r)
  | refreshed {ch : Nat} {force : Bool} {s' t u : State} {r : Except ErrKind Value} (checked : Quiet s s')
      (converts : s'.Converts (muxOf ch) t) (quiet : QuietAdc t u)
      (ends : t.adc.CompletionEnds (muxOf ch) r u.adc) : Writes s (.adcReadc ch force) u (Result.ofSteps r)
  | dacSet {ch pd gain vref : Nat} {c : Fin 4} {k : DacChannel} {r : Result} :
      Writes s (.dacSetcfg ch pd gain vref) (s.setDacChannel c k) r
  | gated {i : Instr} {u : State} {r : Result} (isGated : PassesGate i) (quiet : QuietEe s u) : Writes s i u r
  | filled {id : Nat} {u : State} {p : List Byte} {r : Result} (quiet : Quiet s u) (length : p.length = 32) :
      Writes s (.eeRead id) (u.fillPbuf p) r

theorem State.cacheChecked_quiet (s : State) (c : BitVec 3) (force : Bool) : Quiet s (s.cacheChecked c force) := by
  unfold State.cacheChecked
  split
  · exact s.readClock_quiet
  · exact Quiet.refl s

/-- A page that was read whole has its 32 bytes (R62). -/
theorem State.readPageRaw_page_length {s t : State} {id : Nat} {p : List Byte} (h : s.readPageRaw id = (.page p, t)) :
    p.length = 32 := by
  unfold State.readPageRaw State.readPageTransfers at h
  dsimp only at h
  split at h
  · split at h
    · cases h
      exact (State.readAnswer_limits _ _ _ 32 (Nat.le_refl _)).2.2
    · cases h
  · cases h

theorem writes_adcStart (s : State) (ch mode : Nat) (r : Result) :
    Writes s (.adcStart ch mode) (s.startSteps (muxOf ch) (modeOf mode)).2 r := by
  obtain ⟨-, h⟩ | ⟨-, hquiet, -, -, ⟨-, -, d, hadc⟩ | ⟨-, -, hadc⟩⟩ := s.startSteps_cases (muxOf ch) (modeOf mode)
  · rw [h]
    exact .nothing (Quiet.refl s)
  · exact .started (.inl ⟨ch, mode, rfl⟩) hquiet hadc
  · exact .started (.inl ⟨ch, mode, rfl⟩) hquiet hadc

theorem writes_adcComplete (s : State) (ch : Nat) :
    Writes s (.adcComplete ch) (s.completeSteps (muxOf ch)).2 (Result.ofSteps (s.completeSteps (muxOf ch)).1) := by
  obtain ⟨-, h⟩ | ⟨-, h⟩ := s.completeSteps_cases (muxOf ch)
  · rw [h]
    exact .nothing (Quiet.refl s)
  · rw [h]
    obtain ⟨hquiet, hends⟩ := s.completeAttempts_cases (muxOf ch) s.params.adcCompleteTries
    exact .completed hquiet hends

/-- The refresh of ADC.READC, which begins after its look at the cache. -/
theorem writes_refresh {s s' : State} (hchecked : Quiet s s') (ch : Nat) (force : Bool) :
    Writes s (.adcReadc ch force) (s'.refreshSteps (muxOf ch)).2 (Result.ofSteps (s'.refreshSteps (muxOf ch)).1) := by
  obtain ⟨-, hquiet, -, hadc, -⟩ | ⟨t, hconv, hquiet, hends⟩ := s'.refreshSteps_cases (muxOf ch)
  · rw [hchecked.adc] at hadc
    exact .started (.inr ⟨ch, force, rfl⟩) (hchecked.toAdc.trans hquiet) hadc
  · exact .refreshed hchecked hconv hquiet hends

theorem writes_eeRead (s : State) (id : Nat) : ∃ u r, s.eeReadPage id = u.finish r ∧ Writes s (.eeRead id) u r := by
  have hquiet := s.readPageRaw_quiet id
  unfold State.eeReadPage
  split
  · rename_i hread
    rw [hread] at hquiet
    exact ⟨_, _, rfl, .filled hquiet (State.readPageRaw_page_length hread)⟩
  · rename_i hread
    rw [hread] at hquiet
    exact ⟨_, _, rfl, .nothing hquiet⟩
  · rename_i hread
    rw [hread] at hquiet
    exact ⟨_, _, rfl, .filled (hquiet.trans (State.afterDraw_quiet _)) (State.drawBytes_length _ (Nat.le_refl 32))⟩

theorem endPageWrite_eq_finish (w : ErrKind × State) : ∃ r, endPageWrite w = w.2.finish r := by
  unfold endPageWrite
  split <;> exact ⟨_, rfl⟩

theorem endReady_eq_finish (g : Bool × State) : ∃ r, endReady g = g.2.finish r := by
  unfold endReady
  split <;> exact ⟨_, rfl⟩

theorem endBulk_eq_finish (f : BitVec 128 × State) : ∃ r, endBulk f = f.2.finish r := by
  unfold endBulk
  split <;> exact ⟨_, rfl⟩

theorem checkSignature_eq_finish (s : State) :
    ∃ r, s.checkSignature = (s.readPageRaw s.params.eeSigPage).2.finish r := by
  unfold State.checkSignature
  split
  · rename_i hread
    rw [hread]
    split <;> exact ⟨_, rfl⟩
  · rename_i hread
    rw [hread]
    exact ⟨_, rfl⟩

/-- Every operation that ends has written its unit's state, and then its result. The operations not named return at
once. -/
theorem exec_writes {i : Instr} {s t : State} (h : exec i s = .next t) : ∃ u r, t = u.finish r ∧ Writes s i u r := by
  cases i with
  | adcConfig pga dr cmode cpol clat cque =>
    by_cases hbusy : s.adc.phase = .converting
    · cases (exec_adcConfig_converting hbusy pga dr cmode cpol clat cque).symm.trans h
      exact ⟨s, _, rfl, .nothing (Quiet.refl s)⟩
    · cases (exec_adcConfig_not_converting hbusy pga dr cmode cpol clat cque).symm.trans h
      exact ⟨_, _, rfl, .configured hbusy⟩
  | adcStart ch mode =>
    cases h
    exact ⟨_, _, State.conclude_eq_finish .., writes_adcStart s ch mode _⟩
  | adcComplete ch =>
    cases h
    exact ⟨_, _, State.conclude_eq_finish .., writes_adcComplete s ch⟩
  | adcReadc ch force =>
    have hchecked := s.cacheChecked_quiet (muxOf ch) force
    cases h
    split
    · exact ⟨_, _, rfl, .nothing hchecked⟩
    · exact ⟨_, _, State.conclude_eq_finish .., writes_refresh hchecked ch force⟩
  | dacFrame ch pd gain vref data =>
    obtain ⟨c, rfl⟩ | hnone := eq_channel_or_ge ch
    · cases (exec_dacFrame_channel s c pd gain vref data).symm.trans h
      exact ⟨s, _, rfl, .nothing (Quiet.refl s)⟩
    · cases (exec_dacFrame_sentinel s pd gain vref data hnone).symm.trans h
      exact ⟨s, _, rfl, .nothing (Quiet.refl s)⟩
  | dacSetcfg ch pd gain vref =>
    obtain ⟨c, rfl⟩ | hnone := eq_channel_or_ge ch
    · cases (exec_dacSetcfg_channel s c pd gain vref).symm.trans h
      exact ⟨_, _, rfl, .dacSet⟩
    · cases (exec_dacSetcfg_sentinel s pd gain vref hnone).symm.trans h
      exact ⟨s, _, rfl, .nothing (Quiet.refl s)⟩
  | dacWrite ch data =>
    obtain ⟨c, rfl⟩ | hnone := eq_channel_or_ge ch
    · cases (exec_dacWrite_channel s c data).symm.trans h
      exact ⟨_, _, State.conclude_eq_finish .., .nothing (State.busWrite_spec ..).1⟩
    · cases (exec_dacWrite_sentinel s data hnone).symm.trans h
      exact ⟨s, _, rfl, .nothing (Quiet.refl s)⟩
  | eeRead id =>
    rcases Nat.lt_or_ge id s.params.eePages with hid | hid
    · cases (exec_eeRead_of_lt hid).symm.trans h
      exact writes_eeRead s id
    · cases (exec_eeRead_of_ge hid).symm.trans h
      exact ⟨s, _, rfl, .nothing (Quiet.refl s)⟩
  | eeWrite id =>
    rcases Nat.lt_or_ge id s.params.eePages with hid | hid
    · cases hread : s.pbuf.readBytes 0 pbufSize with
      | none => cases (exec_eeWrite_of_unwritten hid hread).symm.trans h
      | some p =>
        cases (exec_eeWrite_of_written hid hread).symm.trans h
        obtain ⟨r, hend⟩ := endPageWrite_eq_finish (s.writePageRaw id p)
        exact ⟨_, r, hend, .gated (.inl ⟨id, rfl⟩) (s.writePageRaw_quietEe id p)⟩
    · cases (exec_eeWrite_of_ge hid).symm.trans h
      exact ⟨s, _, rfl, .nothing (Quiet.refl s)⟩
  | eeReady tries =>
    cases h
    obtain ⟨r, hend⟩ := endReady_eq_finish (s.gate tries)
    exact ⟨_, r, hend, .gated (.inr (.inl ⟨tries, rfl⟩)) (s.gate_quietEe tries)⟩
  | eeFormat =>
    cases h
    obtain ⟨r, hend⟩ := endBulk_eq_finish
      (s.afterDraw.formatPages (s.drawBytes 32) 0 (List.range s.params.eePages))
    exact ⟨_, r, hend, .gated (.inr (.inr (.inl rfl)))
      (s.afterDraw_quiet.toEe.trans (State.formatPages_quietEe ..))⟩
  | eeInit =>
    cases h
    obtain ⟨r, hend⟩ := endBulk_eq_finish (s.initPages 0 (List.range s.params.eePages))
    exact ⟨_, r, hend, .gated (.inr (.inr (.inr rfl))) (s.initPages_quietEe ..)⟩
  | eeChecksig =>
    cases h
    obtain ⟨r, hend⟩ := checkSignature_eq_finish s
    exact ⟨_, r, hend, .nothing (s.readPageRaw_quiet _)⟩
  | _ => cases h; exact ⟨s, _, rfl, .nothing (Quiet.refl s)⟩

/-! ### Field by field -/

section Fields

variable {s t : State} (h : QuietAdc s t)
include h

theorem QuietAdc.keepsRun : KeepsRun s t := by
  rw [h.same]
  exact ⟨rfl, rfl, rfl, rfl⟩

theorem QuietAdc.dac : t.dac = s.dac := by rw [h.same]

theorem QuietAdc.ee : t.ee = s.ee := by rw [h.same]

theorem QuietAdc.pbuf : t.pbuf = s.pbuf := by rw [h.same]

end Fields

theorem QuietEe.keepsRun {s t : State} (h : QuietEe s t) : KeepsRun s t :=
  ⟨h.params, h.faultMark, h.refusalMark, h.port⟩

theorem Quiet.keepsRun {s t : State} (h : Quiet s t) : KeepsRun s t := h.toEe.keepsRun

/-- What an operation leaves that was quiet before its result. -/
theorem Quiet.finish {s t : State} (h : Quiet s t) (r : Result) :
    t.finish r = { s with res := r, history := (t.finish r).history, env := (t.finish r).env } := by
  conv_lhs => rw [h.same]
  rfl

/-- What an operation leaves that passed the gate and wrote nothing but the ready time before its result. -/
theorem QuietEe.finish {s t : State} (h : QuietEe s t) (r : Result) :
    t.finish r = { s with
      ee := (t.finish r).ee, res := (t.finish r).res, history := (t.finish r).history, env := (t.finish r).env } := by
  conv_lhs => rw [h.same]
  rfl

/-- No operation writes the parameters, the marks or the port. -/
theorem Writes.keepsRun {s u : State} {i : Instr} {r : Result} (h : Writes s i u r) : KeepsRun s u := by
  cases h with
  | nothing quiet => exact quiet.keepsRun
  | configured => exact ⟨rfl, rfl, rfl, rfl⟩
  | started _ quiet => exact quiet.keepsRun
  | completed quiet => exact quiet.keepsRun
  | refreshed checked converts quiet => exact ((checked.toAdc.trans converts.quietAdc).trans quiet).keepsRun
  | dacSet => exact ⟨rfl, rfl, rfl, rfl⟩
  | gated _ quiet => exact quiet.keepsRun
  | filled quiet => exact quiet.keepsRun

/-- What a START that was attempted makes of `S.adc` (R172). -/
def AdcState.startedWith (a : AdcState) (p : Phase) (d : Timestamp) : AdcState :=
  { a with phase := p, cacheValid := false, deadline := d }

/-- What an operation can have done to `S.adc`: nothing; the six shadow fields and the cache dropped; a START; or a
completion, alone or in ADC.READC, of a conversion that was pending or that READC started. -/
theorem Writes.adc_cases {s u : State} {i : Instr} {r : Result} (h : Writes s i u r) :
    u.adc = s.adc ∨
    (IsAdcConfig i ∧ s.adc.phase ≠ .converting ∧
      ∃ pga dr cmode cpol clat cque, u.adc = s.adc.configured pga dr cmode cpol clat cque) ∨
    ((IsAdcStart i ∨ IsAdcReadc i) ∧ ∃ p d, u.adc = s.adc.startedWith p d) ∨
    (∃ a c b, (a = s.adc ∨ ∃ p d, a = s.adc.startedWith p d) ∧ a.CompletionEnds c b u.adc ∧ r = Result.ofSteps b ∧
      (IsAdcComplete i ∨ ∃ ch force, i = .adcReadc ch force ∧ c = muxOf ch)) := by
  cases h with
  | nothing quiet => exact .inl quiet.adc
  | configured free => exact .inr (.inl ⟨⟨_, _, _, _, _, _, rfl⟩, free, _, _, _, _, _, _, rfl⟩)
  | started isStart _ adc => exact .inr (.inr (.inl ⟨isStart, _, _, adc⟩))
  | completed _ ends => exact .inr (.inr (.inr ⟨_, _, _, .inl rfl, ends, rfl, .inl ⟨_, rfl⟩⟩))
  | refreshed checked converts _ ends =>
    refine .inr (.inr (.inr ⟨_, _, _, ?_, ends, rfl, .inr ⟨_, _, rfl, rfl⟩⟩))
    obtain ⟨-, rfl⟩ | ⟨-, -, -, d, hadc⟩ := converts
    · exact .inl checked.adc
    · exact .inr ⟨.converting, d, by rw [hadc, checked.adc]; rfl⟩
  | dacSet => exact .inl rfl
  | gated _ quiet => exact .inl quiet.adc
  | filled quiet => exact .inl quiet.adc

/-- The clauses of the column "written by" about `S.adc`. -/
def WritesAdcByTable (i : Instr) (s t : State) : Prop :=
  (t.adc.phase = s.adc.phase ∨ IsAdcStart i ∨ IsAdcComplete i ∨ IsAdcReadc i) ∧
  (t.adc.deadline = s.adc.deadline ∨ IsAdcStart i ∨ IsAdcComplete i ∨ IsAdcReadc i) ∧
  (t.adc.lastRead = s.adc.lastRead ∨ IsAdcComplete i ∨ IsAdcReadc i) ∧
  (t.adc.cacheValid = s.adc.cacheValid ∨ IsAdcStart i ∨ IsAdcComplete i ∨ IsAdcConfig i ∨ IsAdcReadc i) ∧
  (t.adc.cacheChannel = s.adc.cacheChannel ∨ IsAdcComplete i ∨
    ∃ ch force, i = .adcReadc ch force ∧ t.res.ok = true ∧ t.adc.phase = .ready ∧
      t.adc.cacheChannel.toNat = min ch 7) ∧
  (t.adc.pga = s.adc.pga ∨ IsAdcConfig i) ∧ (t.adc.dr = s.adc.dr ∨ IsAdcConfig i) ∧
  (t.adc.cmode = s.adc.cmode ∨ IsAdcConfig i) ∧ (t.adc.cpol = s.adc.cpol ∨ IsAdcConfig i) ∧
  (t.adc.clat = s.adc.clat ∨ IsAdcConfig i) ∧ (t.adc.cque = s.adc.cque ∨ IsAdcConfig i)

/-- A completion leaves the shadow fields, and the cached channel unless it succeeds. -/
theorem AdcState.CompletionEnds.kept {a b : AdcState} {c : BitVec 3} {r : Except ErrKind Value}
    (h : a.CompletionEnds c r b) :
    (b.pga = a.pga ∧ b.dr = a.dr ∧ b.cmode = a.cmode ∧ b.cpol = a.cpol ∧ b.clat = a.clat ∧ b.cque = a.cque) ∧
    (b.cacheChannel = a.cacheChannel ∨
      (Result.ofSteps r).ok = true ∧ b.phase = .ready ∧ b.cacheChannel = c) := by
  obtain ⟨d, ⟨v, rfl, rfl⟩ | ⟨-, rfl⟩ | ⟨-, rfl⟩⟩ := h
  · exact ⟨⟨rfl, rfl, rfl, rfl, rfl, rfl⟩, .inr ⟨rfl, rfl, rfl⟩⟩
  · exact ⟨⟨rfl, rfl, rfl, rfl, rfl, rfl⟩, .inl rfl⟩
  · exact ⟨⟨rfl, rfl, rfl, rfl, rfl, rfl⟩, .inl rfl⟩

theorem Writes.adcByTable {s u : State} {i : Instr} {r : Result} (h : Writes s i u r) :
    WritesAdcByTable i s (u.finish r) := by
  unfold WritesAdcByTable
  rw [State.finish_adc, State.finish_res]
  obtain hadc | ⟨hi, -, pga, dr, cmode, cpol, clat, cque, hadc⟩ | ⟨hi, p, d, hadc⟩ | ⟨a, c, b, ha, hends, rfl, hi⟩ :=
    h.adc_cases
  · rw [hadc]
    simp
  · rw [hadc]
    exact ⟨.inl rfl, .inl rfl, .inl rfl, .inr (.inr (.inr (.inl hi))), .inl rfl, .inr hi, .inr hi, .inr hi, .inr hi,
      .inr hi, .inr hi⟩
  · have hmoves : IsAdcStart i ∨ IsAdcComplete i ∨ IsAdcReadc i := hi.imp_right .inr
    rw [hadc]
    exact ⟨.inr hmoves, .inr hmoves, .inl rfl, .inr (hi.imp_right fun h => .inr (.inr h)), .inl rfl, .inl rfl, .inl rfl,
      .inl rfl, .inl rfl, .inl rfl, .inl rfl⟩
  · have hmoves : IsAdcComplete i ∨ IsAdcReadc i := hi.imp_right fun ⟨ch, force, hi, _⟩ => ⟨ch, force, hi⟩
    obtain ⟨⟨hpga, hdr, hcmode, hcpol, hclat, hcque⟩, hchannel⟩ := hends.kept
    have hfound : a.cacheChannel = s.adc.cacheChannel ∧ a.pga = s.adc.pga ∧ a.dr = s.adc.dr ∧
        a.cmode = s.adc.cmode ∧ a.cpol = s.adc.cpol ∧ a.clat = s.adc.clat ∧ a.cque = s.adc.cque := by
      obtain rfl | ⟨p, d, rfl⟩ := ha
      · exact ⟨rfl, rfl, rfl, rfl, rfl, rfl, rfl⟩
      · exact ⟨rfl, rfl, rfl, rfl, rfl, rfl, rfl⟩
    obtain ⟨fchannel, fpga, fdr, fcmode, fcpol, fclat, fcque⟩ := hfound
    refine ⟨.inr (.inr hmoves), .inr (.inr hmoves), .inr hmoves,
      .inr (.inr (hmoves.imp_right .inr)), ?_, .inl (hpga.trans fpga), .inl (hdr.trans fdr), .inl (hcmode.trans fcmode),
      .inl (hcpol.trans fcpol), .inl (hclat.trans fclat), .inl (hcque.trans fcque)⟩
    obtain hsame | ⟨hok, hready, rfl⟩ := hchannel
    · exact .inl (hsame.trans fchannel)
    · refine .inr (hi.imp_right ?_)
      rintro ⟨ch, force, hi, hc⟩
      exact ⟨ch, force, hi, hok, hready, by rw [hc, muxOf_toNat]⟩

/-- The other units' state: the DAC's table, the ready time and PBUF. -/
theorem Writes.other_units {s u : State} {i : Instr} {r : Result} (h : Writes s i u r) :
    (u.dac = s.dac ∨ ∃ ch pd gain vref, i = .dacSetcfg ch pd gain vref) ∧ (u.ee = s.ee ∨ PassesGate i) ∧
    (u.pbuf = s.pbuf ∨ ∃ id, i = .eeRead id) := by
  cases h with
  | nothing quiet => exact ⟨.inl quiet.dac, .inl quiet.ee, .inl quiet.pbuf⟩
  | configured => exact ⟨.inl rfl, .inl rfl, .inl rfl⟩
  | started _ quiet => exact ⟨.inl quiet.dac, .inl quiet.ee, .inl quiet.pbuf⟩
  | completed quiet => exact ⟨.inl quiet.dac, .inl quiet.ee, .inl quiet.pbuf⟩
  | refreshed checked converts quiet =>
    have hall := (checked.toAdc.trans converts.quietAdc).trans quiet
    exact ⟨.inl hall.dac, .inl hall.ee, .inl hall.pbuf⟩
  | dacSet => exact ⟨.inr ⟨_, _, _, _, rfl⟩, .inl rfl, .inl rfl⟩
  | gated isGated quiet => exact ⟨.inl quiet.dac, .inr isGated, .inl quiet.pbuf⟩
  | filled quiet => exact ⟨.inl quiet.dac, .inl quiet.ee, .inr ⟨_, rfl⟩⟩

/-- Settles O56: by the one unit whose state an operation's steps write. -/
theorem unitsWriteOnlyTheirState : Obligations.UnitsWriteOnlyTheirState := by
  intro i s t h
  obtain ⟨u, r, rfl, hw⟩ := exec_writes h
  obtain ⟨hphase, hdeadline, hlastRead, hvalid, hchannel, hpga, hdr, hcmode, hcpol, hclat, hcque⟩ := hw.adcByTable
  obtain ⟨hdac, hee, hpbuf⟩ := hw.other_units
  exact ⟨hw.keepsRun, hphase, hdeadline, hlastRead, hvalid, hchannel, hpga, hdr, hcmode, hcpol, hclat, hcque, hdac, hee,
    hpbuf.imp_left fun hsame _ => congrArg (Memory.lookup · _) hsame⟩

/-! ### The invariant and the marks -/

/-- A completion leaves no valid cache beside a pending conversion (R180). -/
theorem AdcState.CompletionEnds.cacheQuiet {a b : AdcState} {c : BitVec 3} {r : Except ErrKind Value}
    (h : a.CompletionEnds c r b) (ha : a.phase = .converting → a.cacheValid = false) (hb : b.phase = .converting) :
    b.cacheValid = false := by
  obtain ⟨d, ⟨v, -, rfl⟩ | ⟨-, rfl⟩ | ⟨-, rfl⟩⟩ := h
  · cases hb
  · cases hb
  · exact ha hb

theorem Writes.cacheQuiet {s u : State} {i : Instr} {r : Result} (h : Writes s i u r)
    (hs : s.CacheQuietWhileConverting) : u.CacheQuietWhileConverting := by
  unfold State.CacheQuietWhileConverting at *
  obtain hadc | ⟨-, -, _, _, _, _, _, _, hadc⟩ | ⟨-, p, d, hadc⟩ | ⟨a, c, b, ha, hends, -⟩ := h.adc_cases
  · rwa [hadc]
  · rw [hadc]
    exact fun _ => rfl
  · rw [hadc]
    exact fun _ => rfl
  · refine hends.cacheQuiet ?_
    obtain rfl | ⟨p, d, rfl⟩ := ha
    · exact hs
    · exact fun _ => rfl

theorem Writes.pgaLegal {s u : State} {i : Instr} {r : Result} (h : Writes s i u r) (hs : s.PgaLegal) :
    u.PgaLegal := by
  unfold State.PgaLegal at *
  obtain hadc | ⟨-, -, pga, _, _, _, _, _, hadc⟩ | ⟨-, p, d, hadc⟩ | ⟨a, c, b, ha, hends, -⟩ := h.adc_cases
  · rwa [hadc]
  · rw [hadc]
    exact (toNat_ofNat_saturate (by decide) pga).trans_le (Nat.min_le_right _ _)
  · rwa [hadc]
  · obtain ⟨⟨hpga, -⟩, -⟩ := hends.kept
    rw [hpga]
    obtain rfl | ⟨p, d, rfl⟩ := ha
    · exact hs
    · exact hs

/-- PBUF keeps its canonical form: what fills it is one whole page. -/
theorem Writes.pbufWf {s u : State} {i : Instr} {r : Result} (h : Writes s i u r) (hs : s.pbuf.wf = true) :
    u.pbuf.wf = true := by
  cases h with
  | filled quiet length =>
    refine Memory.wf_writeBytes _ 0 _ (by rw [length]; decide) ?_
    rwa [quiet.pbuf]
  | nothing quiet => rwa [quiet.pbuf]
  | started _ quiet => rwa [quiet.pbuf]
  | completed quiet => rwa [quiet.pbuf]
  | refreshed checked converts quiet => rwa [((checked.toAdc.trans converts.quietAdc).trans quiet).pbuf]
  | gated _ quiet => rwa [quiet.pbuf]
  | configured => exact hs
  | dacSet => exact hs

/-- The invariant across an operation. -/
theorem exec_keeps_inv {i : Instr} {s t : State} (hs : s.Inv) (h : exec i s = .next t) : t.Inv := by
  obtain ⟨u, r, rfl, hwrites⟩ := exec_writes h
  obtain ⟨u', r', hend, hissues, hanswer⟩ := exec_performs h
  obtain ⟨hpbuf, heeprom⟩ := hs.memoriesWf
  have henv : u'.env = u.env := (congrArg State.env hend).symm
  have hres : r = r' := congrArg State.res hend
  refine ⟨?_, hwrites.pgaLegal hs.pgaLegal, hwrites.cacheQuiet hs.cacheQuiet, ?_, hwrites.pbufWf hpbuf, ?_⟩
  · rw [State.finish_params, hwrites.keepsRun.1]
    exact hs.paramsStated
  · exact hres ▸ hanswer.consistent
  · intro v hv
    exact hissues.eeprom heeprom v (henv ▸ hv)

/-- The invariant does not speak of the port. -/
theorem State.Inv.setPort {s : State} (hs : s.Inv) (rest : List HostMove) : State.Inv { s with port := rest } :=
  ⟨hs.paramsStated, hs.pgaLegal, hs.cacheQuiet, hs.resultConsistent, hs.memoriesWf⟩

/-- Settles O53: an operation keeps each part of the invariant, and of the other steps only the host's write touches one
of them, PBUF's form. -/
theorem stepKeepsInvariant : Obligations.StepKeepsInvariant := by
  intro s t hs h
  obtain ⟨-, ⟨-, rfl⟩ | ⟨op, rest, i, -, -, hexec⟩ | ⟨op, rest, -, -, rfl⟩ | ⟨a, v, rest, -, hin, rfl⟩⟩ := step_cases h
  · exact hs
  · exact exec_keeps_inv (hs.setPort rest) hexec
  · exact ⟨hs.paramsStated, hs.pgaLegal, hs.cacheQuiet, ⟨fun h => Bool.noConfusion h, fun h => ErrKind.noConfusion h⟩,
      hs.memoriesWf⟩
  · exact ⟨hs.paramsStated, hs.pgaLegal, hs.cacheQuiet, hs.resultConsistent,
      Memory.wf_writeBytes _ _ _ hin hs.memoriesWf.1, hs.memoriesWf.2⟩

/-- Settles O47: an operation writes neither mark, and only the answer to a reserved code sets the refusal mark. -/
theorem marksAreKept : Obligations.MarksAreKept := by
  intro s t h
  obtain ⟨hmark, ⟨hport, rfl⟩ | ⟨op, rest, i, hport, hlisted, hexec⟩ | ⟨op, rest, hport, hreserved, rfl⟩ |
    ⟨a, v, rest, hport, -, rfl⟩⟩ := step_cases h
  · simp [hmark, hport]
  · obtain ⟨u, r, rfl, hwrites⟩ := exec_writes hexec
    obtain ⟨-, hfault, hrefusal, -⟩ := hwrites.keepsRun
    rw [State.finish_faultMark, State.finish_refusalMark, hfault, hrefusal]
    simp [hmark, hport, hlisted]
  · exact ⟨hmark, fun _ => .inr ⟨op, rest, hport, hreserved⟩, fun _ => rfl⟩
  · simp [hmark, hport]

end Sys2Proof.Machine

/-! PROOF. What holds of single operations in every environment: refusals before any event, the host's macros
(spec/30_encoding.md R95), a cache that answers (spec/41_adc.md R176), and the rows of the conversion phase's table
(spec/10_state.md R29; spec/41_adc.md section 3). -/

namespace Sys2Proof.Machine

/-! ### Refusals -/

/-- Settles O32: nothing is done outside CONVERTING. -/
theorem adcCompleteNotConverting : Obligations.AdcCompleteNotConverting :=
  fun ch s hfree => congrArg (fun r => Host.Outcome.next (endOperation r))
    (if_neg hfree : s.completeSteps (muxOf ch) = (.error .notConverting, s))

/-- Settles O41: the id is compared with `EE_PAGES` before anything else. -/
theorem pageIdCheckedFirst : Obligations.PageIdCheckedFirst := by
  intro id s hid
  have hge : s.params.eePages ≤ id := hid.elim (fun h => h) fun ⟨hstated, h⟩ => hstated.eePages.trans_le h
  exact ⟨exec_eeRead_of_ge hge, exec_eeWrite_of_ge hge⟩

/-! ### The host's macros -/

/-- Settles O38: each pseudo-operation is its operations in order, none of which faults or is refused. -/
theorem pseudoOperationsSequence : Obligations.PseudoOperationsSequence :=
  ⟨fun _ _ _ => ⟨_, rfl, rfl⟩, fun _ => ⟨_, _, rfl, rfl, rfl⟩⟩

/-- A DAC.WRITE to a channel: the frame of its record is its one transaction, and no unit's state changes. -/
theorem exec_dacWrite_sends (s : State) (c : Fin 4) (data : Int) :
    ∃ (t : State) (r : Int) (res : Result), exec (.dacWrite c.val data) s = .next t ∧
      t = { s with res := res, history := t.history, env := t.env } ∧
      t.history = .result res ::
        .write s.params.dacBus (dacAddr s.params) (dacFrame s.params c s.dac.cfg[c] (clamp12 s.params data)) false r ::
          s.history := by
  obtain ⟨hquiet, -, hhist⟩ := State.busWrite_spec s s.params.dacBus (dacAddr s.params)
    (dacFrame s.params c s.dac.cfg[c] (clamp12 s.params data)) false
  refine ⟨_, _, Result.ofSteps (s.dacWriteSteps c data).1, ?_, hquiet.finish _, congrArg (List.cons _) hhist⟩
  rw [exec_dacWrite_channel, endOperation, State.conclude_eq_finish]
  rfl

/-- Settles O23: each of the four writes leaves the table, from which the next one's frame is made. -/
theorem dacWriteallIssuesEveryChannel : Obligations.DacWriteallIssuesEveryChannel := by
  intro d0 d1 d2 d3 s
  obtain ⟨t0, r0, res0, h0, same0, hist0⟩ := exec_dacWrite_sends s 0 d0
  obtain ⟨t1, r1, res1, h1, same1, hist1⟩ := exec_dacWrite_sends t0 1 d1
  obtain ⟨t2, r2, res2, h2, same2, hist2⟩ := exec_dacWrite_sends t1 2 d2
  obtain ⟨t3, r3, res3, h3, same3, hist3⟩ := exec_dacWrite_sends t2 3 d3
  have hkept : t0.params = s.params ∧ t0.dac = s.dac ∧ t1.params = s.params ∧ t1.dac = s.dac ∧
      t2.params = s.params ∧ t2.dac = s.dac := by
    rw [same2, same1, same0]
    exact ⟨rfl, rfl, rfl, rfl, rfl, rfl⟩
  obtain ⟨hparams0, hdac0, hparams1, hdac1, hparams2, hdac2⟩ := hkept
  rw [hparams2, hdac2, hist2, hparams1, hdac1, hist1, hparams0, hdac0, hist0] at hist3
  have hrun : pseudoDacWriteall d0 d1 d2 d3 s = .next t3 := by
    have e0 : exec (.dacWrite 0 d0) s = .next t0 := h0
    have e1 : exec (.dacWrite 1 d1) t0 = .next t1 := h1
    have e2 : exec (.dacWrite 2 d2) t1 = .next t2 := h2
    simp only [pseudoDacWriteall, issueNext, e0, e1, e2]
    exact h3
  refine ⟨t3, r0, r1, r2, r3, hrun, ?_, ?_, ?_, ?_, _, hist3.trans (List.append_assoc [_, _, _, _, _, _, _, _] [] _),
    rfl⟩
  · rw [same3, ← hdac2]
  · rw [same3, same2, same1, same0]
  · rw [same3, same2, same1, same0]
  · rw [same3, same2, same1, same0]
    exact fun _ => rfl

/-! ### The cache of ADC.READC -/

theorem clockForward_toNat {t : Timestamp} {d : Nat} (h : t.toNat + d < 2 ^ 64) :
    (clockForward t d).toNat = t.toNat + d := by
  rw [clockForward, BitVec.toNat_ofNat]
  omega

/-- The cached channel is the operand's exactly where their numbers are the same. -/
theorem eq_muxOf_iff (c : BitVec 3) (ch : Nat) : c = muxOf ch ↔ c.toNat = min ch 7 := by
  rw [← BitVec.toNat_inj, muxOf_toNat]

/-- Settles O33: the one clock reading, before the deadline, is all that the cache asks for. -/
theorem adcReadcCacheHit : Obligations.AdcReadcCacheHit := by
  intro ch s hvalid hchannel hearly
  have hsame : s.adc.cacheChannel = muxOf ch := (eq_muxOf_iff ..).2 hchannel
  have hread : s.readClock = { s with env := envAfter s 1 (clockForward s.env.clock (s.drawAt 0).advance) } :=
    State.readClock_after (envAfter_zero s).symm
  have hlimit := s.adc.deadline.isLt
  have hclock : (clockForward s.env.clock (s.drawAt 0).advance).toNat = s.env.clock.toNat + (s.drawAt 0).advance :=
    clockForward_toNat (by omega)
  have hchecked : s.cacheChecked (muxOf ch) false = s.readClock := by
    simp [State.cacheChecked, hvalid, hsame]
  have hhit : s.cacheHit (muxOf ch) false = true := by
    simp [State.cacheHit, hchecked, hread, hvalid, hsame, envAfter, hclock, hearly]
  refine ⟨_, hclock, ?_⟩
  simp only [exec, execAdcReadc, hhit, if_true, hchecked, hread]
  rfl

/-! ### The rows of the phase's table (R29) -/

/-- Settles O40: the endings of a completion that fail write the phase and the deadline alone. -/
theorem failedCompletionKeepsCount : Obligations.FailedCompletionKeepsCount := by
  intro ch s t h hfailed
  have ht : t = (s.completeSteps (muxOf ch)).2.finish (Result.ofSteps (s.completeSteps (muxOf ch)).1) :=
    (Host.Outcome.next.inj h).symm.trans (State.conclude_eq_finish ..)
  subst ht
  rw [State.finish_res] at hfailed
  rw [State.finish_adc, State.finish_res]
  obtain ⟨-, hsteps⟩ | ⟨-, hsteps⟩ := s.completeSteps_cases (muxOf ch)
  · rw [hsteps]
    exact ⟨rfl, rfl, rfl, fun h => by rcases h with h | h <;> cases h⟩
  · rw [hsteps] at hfailed ⊢
    obtain ⟨-, d, ⟨v, hok, -⟩ | ⟨herr, hadc⟩ | ⟨herr, hadc⟩⟩ :=
      s.completeAttempts_cases (muxOf ch) s.params.adcCompleteTries
    · rw [hok] at hfailed
      cases hfailed
    · rw [hadc]
      refine ⟨rfl, rfl, ?_, fun _ => rfl⟩
      obtain herr | herr := herr <;> rw [herr] <;> rfl
    · rw [hadc, herr]
      exact ⟨rfl, rfl, rfl, fun h => by rcases h with h | h <;> cases h⟩

/-- The rows of a completion: what it leaves of the phase, by its result. -/
theorem AdcState.CompletionEnds.phase {a b : AdcState} {c : BitVec 3} {r : Except ErrKind Value}
    (h : a.CompletionEnds c r b) (ha : a.phase = .converting) :
    (b.phase = .ready ∧ (Result.ofSteps r).err = .none) ∨
    (b.phase = .error ∧ ((Result.ofSteps r).err = .mismatch ∨ (Result.ofSteps r).err = .bus)) ∨
    (b.phase = .converting ∧ (Result.ofSteps r).err = .pending) := by
  obtain ⟨d, ⟨v, rfl, rfl⟩ | ⟨rfl | rfl, rfl⟩ | ⟨rfl, rfl⟩⟩ := h
  · exact .inl ⟨rfl, rfl⟩
  · exact .inr (.inl ⟨rfl, .inr rfl⟩)
  · exact .inr (.inl ⟨rfl, .inl rfl⟩)
  · exact .inr (.inr ⟨ha, rfl⟩)

theorem phase_adcStart {s t : State} {evs : List Event} {ch mode : Nat} (h : exec (.adcStart ch mode) s = .next t)
    (hevs : t.history = evs ++ s.history) :
    (s.adc.phase = .converting ∧ t.adc.phase = .converting ∧ t.res.err = .busy ∧ transfers evs = []) ∨
    (s.adc.phase ≠ .converting ∧ t.adc.phase = .converting ∧ t.res.err = .none ∧
      transfers evs = [s.startEvent ch mode 3]) ∨
    (s.adc.phase ≠ .converting ∧ t.adc.phase = .error ∧ t.res.err = .bus ∧
      ∃ r, r ≠ 3 ∧ transfers evs = [s.startEvent ch mode r]) := by
  have ht : t = (s.startSteps (muxOf ch) (modeOf mode)).2.finish
      (Result.ofSteps (s.startSteps (muxOf ch) (modeOf mode)).1) :=
    (Host.Outcome.next.inj h).symm.trans (State.conclude_eq_finish ..)
  subst ht
  rw [State.finish_history] at hevs
  rw [State.finish_adc, State.finish_res]
  obtain ⟨hbusy, hsteps⟩ | ⟨hfree, -, r, hhist, ⟨rfl, hok, d, hadc⟩ | ⟨hr, herr, hadc⟩⟩ :=
    s.startSteps_cases (muxOf ch) (modeOf mode)
  · rw [hsteps] at hevs ⊢
    obtain rfl := List.append_cancel_right (as := [_]) hevs
    exact .inl ⟨hbusy, hbusy, rfl, rfl⟩
  · rw [hhist] at hevs
    obtain rfl := List.append_cancel_right (as := [_, _]) hevs
    rw [hadc, hok]
    exact .inr (.inl ⟨hfree, rfl, rfl, rfl⟩)
  · rw [hhist] at hevs
    obtain rfl := List.append_cancel_right (as := [_, _]) hevs
    rw [hadc, herr]
    exact .inr (.inr ⟨hfree, rfl, rfl, r, hr, rfl⟩)

theorem phase_adcComplete {s t : State} {ch : Nat} (h : exec (.adcComplete ch) s = .next t) :
    (s.adc.phase ≠ .converting ∧ t.adc = s.adc ∧ t.res.err = .notConverting) ∨
    (s.adc.phase = .converting ∧ t.adc.phase = .ready ∧ t.res.err = .none) ∨
    (s.adc.phase = .converting ∧ t.adc.phase = .error ∧ (t.res.err = .mismatch ∨ t.res.err = .bus)) ∨
    (s.adc.phase = .converting ∧ t.adc.phase = .converting ∧ t.res.err = .pending) := by
  have ht : t = (s.completeSteps (muxOf ch)).2.finish (Result.ofSteps (s.completeSteps (muxOf ch)).1) :=
    (Host.Outcome.next.inj h).symm.trans (State.conclude_eq_finish ..)
  subst ht
  rw [State.finish_adc, State.finish_res]
  obtain ⟨hfree, hsteps⟩ | ⟨hconv, hsteps⟩ := s.completeSteps_cases (muxOf ch)
  · rw [hsteps]
    exact .inl ⟨hfree, rfl, rfl⟩
  · rw [hsteps]
    obtain ⟨-, hends⟩ := s.completeAttempts_cases (muxOf ch) s.params.adcCompleteTries
    obtain hready | herror | hpending := AdcState.CompletionEnds.phase hends hconv
    · exact .inr (.inl ⟨hconv, hready⟩)
    · exact .inr (.inr (.inl ⟨hconv, herror⟩))
    · exact .inr (.inr (.inr ⟨hconv, hpending⟩))

/-- The look at the cache leaves the history, too. -/
theorem State.cacheChecked_history (s : State) (c : BitVec 3) (force : Bool) :
    (s.cacheChecked c force).history = s.history := by
  unfold State.cacheChecked
  split <;> rfl

/-- The start word comes from the parameters and the shadow fields. -/
theorem State.startWrite_congr {s s' : State} (hparams : s'.params = s.params) (hadc : s'.adc = s.adc) (c : BitVec 3)
    (md : BitVec 1) (r : Int) : s'.startWrite c md r = s.startWrite c md r := by
  simp only [State.startWrite, State.startWord, State.comparatorBits, hparams, hadc]

theorem phase_adcReadc {s t : State} {evs : List Event} {ch : Nat} {force : Bool}
    (h : exec (.adcReadc ch force) s = .next t) (hevs : t.history = evs ++ s.history) :
    (t.adc = s.adc ∧ s.adc.cacheValid = true ∧ t.res.err = .none ∧ transfers evs = []) ∨
    (s.adc.phase ≠ .converting ∧ t.adc.phase = .error ∧ t.res.err = .bus ∧
      ∃ r, r ≠ 3 ∧ transfers evs = [s.startEvent ch 1 r]) ∨
    ((s.adc.phase = .converting ∨ ∃ later, transfers evs = later ++ [s.startEvent ch 1 3]) ∧
      ((t.adc.phase = .ready ∧ t.res.err = .none) ∨
        (t.adc.phase = .error ∧ (t.res.err = .mismatch ∨ t.res.err = .bus)) ∨
        (t.adc.phase = .converting ∧ t.res.err = .pending))) := by
  have hquiet := s.cacheChecked_quiet (muxOf ch) force
  have hhist := s.cacheChecked_history (muxOf ch) force
  have hwrite (r : Int) : (s.cacheChecked (muxOf ch) force).startWrite (muxOf ch) 1 r = s.startEvent ch 1 r :=
    (State.startWrite_congr hquiet.params hquiet.adc _ _ r).trans (s.startWrite_eq_startEvent ch 1 r)
  have ht := (Host.Outcome.next.inj h).symm
  split at ht
  · rename_i hhit
    subst ht
    rw [State.ret_history, hhist] at hevs
    obtain rfl := List.append_cancel_right (as := [_]) hevs
    refine .inl ⟨hquiet.adc, ?_, rfl, rfl⟩
    simp only [State.cacheHit, Bool.and_eq_true] at hhit
    obtain ⟨⟨⟨-, hvalid⟩, -⟩, -⟩ := hhit
    exact hvalid
  · rw [endOperation, State.conclude_eq_finish] at ht
    subst ht
    rw [State.finish_history] at hevs
    rw [State.finish_adc, State.finish_res]
    obtain ⟨hfree, -, herr, hadc, r, hr, hstart⟩ | ⟨u, hconv, hrest, hends⟩ :=
      (s.cacheChecked (muxOf ch) force).refreshSteps_cases (muxOf ch)
    · rw [hstart, hhist, hwrite] at hevs
      obtain rfl := List.append_cancel_right (as := [_, _]) hevs
      rw [hadc, herr]
      exact .inr (.inl ⟨hquiet.adc ▸ hfree, rfl, rfl, r, hr, rfl⟩)
    · refine .inr (.inr ⟨?_, hends.phase hconv.phase⟩)
      obtain ⟨hpending, -⟩ | ⟨-, -, hstart, -⟩ := hconv
      · exact .inl (hquiet.adc ▸ hpending)
      · obtain ⟨later, hlater⟩ := hrest.grows
        rw [hlater, hstart, hhist, hwrite] at hevs
        obtain rfl := List.append_cancel_right (as := .result _ :: (later ++ [_])) (by simpa using hevs)
        exact .inr ⟨transfers later, by simp [transfers, Event.isTransfer, State.startEvent]⟩

/-- Settles O39: the three operations by all that their steps can do, and the others by what they write. -/
theorem phaseMovesOnlyByTable : Obligations.PhaseMovesOnlyByTable := by
  intro i s t evs h hevs
  refine ⟨?_, ?_, ?_, fun hstart hcomplete hreadc => ?_⟩
  · rintro ch mode rfl
    exact phase_adcStart h hevs
  · rintro ch rfl
    exact phase_adcComplete h
  · rintro ch force rfl
    exact phase_adcReadc h hevs
  · obtain ⟨-, hphase, -⟩ := unitsWriteOnlyTheirState i s t h
    obtain hsame | hstart' | hcomplete' | hreadc' := hphase
    · exact hsame
    · exact absurd hstart' hstart
    · exact absurd hcomplete' hcomplete
    · exact absurd hreadc' hreadc

end Sys2Proof.Machine

/-! PROOF. ADC.COMPLETE and ADC.READC under the unrestricted oracle (spec/41_adc.md R173, R176): an attempt of a
completion for each way its transactions and its readback can go, the second attempt after one that read OS = 0, and the
refresh of ADC.READC around a completion. -/

namespace Sys2Proof.Machine

/-! ### One attempt, by what its readback gives (R173) -/

/-- The sleep to the deadline and the configuration read back, with which every attempt begins. -/
def State.attempt (s : State) : Option Half × State := (s.sleepUntil s.adc.deadline).adcReadReg 0b01

section Attempt

variable {s t u : State} {c : BitVec 3} {left : Nat} {w : Half}

theorem State.completeAttempts_of_none (h : s.attempt = (none, t)) :
    s.completeAttempts c (left + 1) = (.error .bus, t.setPhase .error) := by
  unfold State.attempt at h
  simp only [State.completeAttempts, h]

variable (h : s.attempt = (some w, t))
include h

theorem State.completeAttempts_of_mismatch (hmux : (unpackWord w).mux ≠ c) :
    s.completeAttempts c (left + 1) = (.error .mismatch, t.setPhase .error) := by
  unfold State.attempt at h
  simp only [State.completeAttempts, h, if_pos hmux]

variable (hmux : (unpackWord w).mux = c)
include hmux

/-- A conversion found done is read. -/
theorem State.completeAttempts_of_done (hos : (unpackWord w).os = 1) :
    s.completeAttempts c (left + 1) =
      match t.adcReadReg 0b00 with
      | (none, u) => (.error .bus, u.setPhase .error)
      | (some v, u) => (.ok (.count v), u.keepConversion c v) := by
  unfold State.attempt at h
  simp only [State.completeAttempts, h, if_neg (not_not.2 hmux), if_pos hos]
  cases t.adcReadReg 0b00 with
  | mk value u => cases value <;> rfl

/-- A conversion found pending is tried again, under `ADC_RETRY_REARM` with a new deadline where another attempt
follows. -/
theorem State.completeAttempts_of_pending (hos : (unpackWord w).os ≠ 1) :
    s.completeAttempts c (left + 1) =
      (if 0 < left ∧ s.params.adcRetryRearm = true then t.armDeadline else t).completeAttempts c left := by
  unfold State.attempt at h
  simp only [State.completeAttempts, h, if_neg (not_not.2 hmux), if_neg hos]
  split <;> rfl

end Attempt

/-! ### One attempt under the unrestricted oracle -/

section Oracle

variable {s t : State} {k : Nat} {now : Timestamp} (h : t.env = envAfter s k now) (ho : s.env.devices = none)
include h ho

/-- The pointer write of the configuration register is not taken. -/
theorem State.attempt_noPointer (hpointer : (s.drawAt (k + 1)).result < 1) :
    ∃ (now' : Timestamp) (r : Int), r < 1 ∧
      t.attempt = (none, { t with
        env := envAfter s (k + 2) now'
        history := .write t.params.adcBus t.params.adcAddr [0x01] true r :: .sleep t.adc.deadline :: t.history }) := by
  obtain ⟨slept, -, -, hsleep⟩ := State.sleepUntil_after h t.adc.deadline
  obtain ⟨now', r, -, hr, hread⟩ := State.adcReadReg_noPointer (s := s) (k := k + 1) (c := slept)
    (t := t.sleepUntil t.adc.deadline) (by rw [hsleep]) ho hpointer 0b01
  refine ⟨now', r, hr, ?_⟩
  rw [State.attempt, hread, hsleep]
  rfl

/-- An attempt whose configuration read does not begin. -/
theorem State.completeAttempts_noPointer (hpointer : (s.drawAt (k + 1)).result < 1) (c : BitVec 3) (left : Nat) :
    ∃ (now' : Timestamp) (r : Int), r < 1 ∧
      t.completeAttempts c (left + 1) = (.error .bus, { t with
        adc := { t.adc with phase := .error }
        env := envAfter s (k + 2) now'
        history := .write t.params.adcBus t.params.adcAddr [0x01] true r :: .sleep t.adc.deadline :: t.history }) := by
  obtain ⟨now', r, hr, hattempt⟩ := State.attempt_noPointer h ho hpointer
  exact ⟨now', r, hr, State.completeAttempts_of_none hattempt⟩

variable (hpointer : 1 ≤ (s.drawAt (k + 1)).result)
include hpointer

/-- The read of the configuration register falls short. -/
theorem State.attempt_short (hdata : (s.drawAt (k + 2)).result < 2) :
    ∃ (now' : Timestamp) (r : Int) (data : List Byte), r < 2 ∧
      t.attempt = (none, { t with
        env := envAfter s (k + 3) now'
        history := .read t.params.adcBus t.params.adcAddr 2 false r data ::
          .write t.params.adcBus t.params.adcAddr [0x01] true 1 :: .sleep t.adc.deadline :: t.history }) := by
  obtain ⟨slept, -, -, hsleep⟩ := State.sleepUntil_after h t.adc.deadline
  obtain ⟨now', r, data, -, hr, hread⟩ := State.adcReadReg_short (s := s) (k := k + 1) (c := slept)
    (t := t.sleepUntil t.adc.deadline) (by rw [hsleep]) ho hpointer hdata 0b01
  refine ⟨now', r, data, hr, ?_⟩
  rw [State.attempt, hread, hsleep]
  rfl

/-- An attempt whose configuration read falls short. -/
theorem State.completeAttempts_short (hdata : (s.drawAt (k + 2)).result < 2) (c : BitVec 3) (left : Nat) :
    ∃ (now' : Timestamp) (r : Int) (data : List Byte), r < 2 ∧
      t.completeAttempts c (left + 1) = (.error .bus, { t with
        adc := { t.adc with phase := .error }
        env := envAfter s (k + 3) now'
        history := .read t.params.adcBus t.params.adcAddr 2 false r data ::
          .write t.params.adcBus t.params.adcAddr [0x01] true 1 :: .sleep t.adc.deadline :: t.history }) := by
  obtain ⟨now', r, data, hr, hattempt⟩ := State.attempt_short h ho hpointer hdata
  exact ⟨now', r, data, hr, State.completeAttempts_of_none hattempt⟩

variable (hdata : 2 ≤ (s.drawAt (k + 2)).result)
include hdata

/-- The configuration is read back. -/
theorem State.attempt_ok :
    ∃ now' : Timestamp, now.toNat ≤ now'.toNat ∧ t.adc.deadline.toNat ≤ now'.toNat ∧
      t.attempt = (some (halfOfBytes (s.drawAt (k + 2)).data[0] (s.drawAt (k + 2)).data[1]), { t with
        env := envAfter s (k + 3) now'
        history := attemptEvents t.params t.adc.deadline (s.drawAt (k + 2)) ++ t.history }) := by
  obtain ⟨slept, hslept, hreached, hsleep⟩ := State.sleepUntil_after h t.adc.deadline
  obtain ⟨now', hread, hregister⟩ := State.adcReadReg_ok (s := s) (k := k + 1) (c := slept)
    (t := t.sleepUntil t.adc.deadline) (by rw [hsleep]) ho hpointer hdata 0b01
  refine ⟨now', Nat.le_trans hslept hread, Nat.le_trans hreached hread, ?_⟩
  rw [State.attempt, hregister, hsleep]
  rfl

/-- An attempt that reads back another channel. -/
theorem State.completeAttempts_mismatch {c : BitVec 3} {channel os left : Nat}
    (hback : ReadsBack (s.drawAt (k + 2)) channel os) (hother : channel ≠ c.toNat) :
    ∃ now' : Timestamp, now.toNat ≤ now'.toNat ∧ t.adc.deadline.toNat ≤ now'.toNat ∧
      t.completeAttempts c (left + 1) = (.error .mismatch, { t with
        adc := { t.adc with phase := .error }
        env := envAfter s (k + 3) now'
        history := attemptEvents t.params t.adc.deadline (s.drawAt (k + 2)) ++ t.history }) := by
  obtain ⟨now', hnow, hreached, hattempt⟩ := State.attempt_ok h ho hpointer hdata
  refine ⟨now', hnow, hreached, State.completeAttempts_of_mismatch hattempt fun hmux => hother ?_⟩
  rw [← hback.unpack.1, hmux]

section Done

variable {c : BitVec 3} (hback : ReadsBack (s.drawAt (k + 2)) c.toNat 1)
include hback

/-- An attempt that finds the conversion done and reads it. -/
theorem State.completeAttempts_done (left : Nat) (hpointer' : 1 ≤ (s.drawAt (k + 3)).result)
    (hdata' : 2 ≤ (s.drawAt (k + 4)).result) :
    ∃ (v : Half) (now' : Timestamp), v.toNat = bigEndian (s.drawAt (k + 4)).data[0] (s.drawAt (k + 4)).data[1] ∧
      now.toNat ≤ now'.toNat ∧ t.adc.deadline.toNat ≤ now'.toNat ∧
      t.completeAttempts c (left + 1) = (.ok (.count v), { t with
        adc := { t.adc with phase := .ready, lastRead := v, cacheValid := true, cacheChannel := c }
        env := envAfter s (k + 5) now'
        history := registerReadEvents t.params 0x00 (s.drawAt (k + 4)) ++
          attemptEvents t.params t.adc.deadline (s.drawAt (k + 2)) ++ t.history }) := by
  obtain ⟨read, hnow, hreached, hattempt⟩ := State.attempt_ok h ho hpointer hdata
  obtain ⟨now', hlater, hconv⟩ := State.adcReadReg_ok (s := s) (k := k + 3) (c := read) (t := t.attempt.2)
    (by rw [hattempt]) ho hpointer' hdata' 0b00
  rw [hattempt] at hconv
  refine ⟨_, now', halfOfBytes_toNat .., Nat.le_trans hnow hlater, Nat.le_trans hreached hlater, ?_⟩
  rw [State.completeAttempts_of_done hattempt (BitVec.eq_of_toNat_eq hback.unpack.1)
    (BitVec.eq_of_toNat_eq hback.unpack.2), hconv]
  rfl

/-- An attempt that finds the conversion done, the pointer write of the conversion register not taken. -/
theorem State.completeAttempts_done_noPointer (left : Nat) (hpointer' : (s.drawAt (k + 3)).result < 1) :
    ∃ (now' : Timestamp) (r : Int), r < 1 ∧
      t.completeAttempts c (left + 1) = (.error .bus, { t with
        adc := { t.adc with phase := .error }
        env := envAfter s (k + 4) now'
        history := .write t.params.adcBus t.params.adcAddr [0x00] true r ::
          (attemptEvents t.params t.adc.deadline (s.drawAt (k + 2)) ++ t.history) }) := by
  obtain ⟨read, -, -, hattempt⟩ := State.attempt_ok h ho hpointer hdata
  obtain ⟨now', r, -, hr, hconv⟩ := State.adcReadReg_noPointer (s := s) (k := k + 3) (c := read) (t := t.attempt.2)
    (by rw [hattempt]) ho hpointer' 0b00
  rw [hattempt] at hconv
  refine ⟨now', r, hr, ?_⟩
  rw [State.completeAttempts_of_done hattempt (BitVec.eq_of_toNat_eq hback.unpack.1)
    (BitVec.eq_of_toNat_eq hback.unpack.2), hconv]
  rfl

/-- An attempt that finds the conversion done, its read falling short. -/
theorem State.completeAttempts_done_short (left : Nat) (hpointer' : 1 ≤ (s.drawAt (k + 3)).result)
    (hdata' : (s.drawAt (k + 4)).result < 2) :
    ∃ (now' : Timestamp) (r : Int) (data : List Byte), r < 2 ∧
      t.completeAttempts c (left + 1) = (.error .bus, { t with
        adc := { t.adc with phase := .error }
        env := envAfter s (k + 5) now'
        history := .read t.params.adcBus t.params.adcAddr 2 false r data ::
          .write t.params.adcBus t.params.adcAddr [0x00] true 1 ::
          (attemptEvents t.params t.adc.deadline (s.drawAt (k + 2)) ++ t.history) }) := by
  obtain ⟨read, -, -, hattempt⟩ := State.attempt_ok h ho hpointer hdata
  obtain ⟨now', r, data, -, hr, hconv⟩ := State.adcReadReg_short (s := s) (k := k + 3) (c := read)
    (t := t.attempt.2) (by rw [hattempt]) ho hpointer' hdata' 0b00
  rw [hattempt] at hconv
  refine ⟨now', r, data, hr, ?_⟩
  rw [State.completeAttempts_of_done hattempt (BitVec.eq_of_toNat_eq hback.unpack.1)
    (BitVec.eq_of_toNat_eq hback.unpack.2), hconv]
  rfl

end Done

/-- The last attempt finds the conversion pending. -/
theorem State.completeAttempts_pending {c : BitVec 3} (hback : ReadsBack (s.drawAt (k + 2)) c.toNat 0) :
    ∃ now' : Timestamp, now.toNat ≤ now'.toNat ∧ t.adc.deadline.toNat ≤ now'.toNat ∧
      t.completeAttempts c 1 = (.error .pending, { t with
        env := envAfter s (k + 3) now'
        history := attemptEvents t.params t.adc.deadline (s.drawAt (k + 2)) ++ t.history }) := by
  obtain ⟨now', hnow, hreached, hattempt⟩ := State.attempt_ok h ho hpointer hdata
  refine ⟨now', hnow, hreached, ?_⟩
  rw [State.completeAttempts_of_pending hattempt (BitVec.eq_of_toNat_eq hback.unpack.1)
    (fun hos => by simpa [hos] using hback.unpack.2), if_neg (by simp)]
  rfl

end Oracle

/-! ### The second attempt -/

/-- The state in which the second attempt begins, `t1` the clock then and `k` the choices of the first. -/
def State.atSecondAttempt (s : State) (c1 : Draw) (k : Nat) (t1 : Timestamp) : State :=
  { s with
    adc := { s.adc with deadline := s.secondDeadline t1 }
    env := envAfter s k t1
    history := attemptEvents s.params s.adc.deadline c1 ++ s.history }

/-- The pointer write and the readback of a first attempt, among the choices awaited. -/
theorem State.Awaits.firstAttempt_draws {s : State} {z p1 c1 n : Draw} {ds : List Draw}
    (h : s.Awaits (firstAttempt s.params z p1 c1 n ++ ds)) : s.drawAt 1 = p1 ∧ s.drawAt 2 = c1 := by
  unfold firstAttempt at h
  split at h
  · exact ⟨h.draw 1 (by simp), h.draw 2 (by simp)⟩
  · exact ⟨h.draw 1 (by simp), h.draw 2 (by simp)⟩

/-- A first attempt that reads OS = 0 is followed by a second, under `ADC_RETRY_REARM` with a new deadline. -/
theorem State.completeAttempts_again {s : State} {z p1 c1 n : Draw} {ds : List Draw} {c : BitVec 3} {left : Nat}
    (hawaits : s.Awaits (firstAttempt s.params z p1 c1 n ++ ds)) (hpointer : 1 ≤ p1.result) (hdata : 2 ≤ c1.result)
    (hback : ReadsBack c1 c.toNat 0) :
    ∃ t1 : Timestamp, s.adc.deadline.toNat ≤ t1.toNat ∧
      s.completeAttempts c (left + 2) =
        (s.atSecondAttempt c1 (firstAttempt s.params z p1 c1 n).length t1).completeAttempts c (left + 1) := by
  obtain ⟨rfl, rfl⟩ := hawaits.firstAttempt_draws
  obtain ⟨now, -, hreached, hattempt⟩ :=
    State.attempt_ok (envAfter_zero s).symm hawaits.oracle (k := 0) hpointer hdata
  have hnext := State.completeAttempts_of_pending (left := left + 1) hattempt
    (BitVec.eq_of_toNat_eq hback.unpack.1) (fun hos => by simpa [hos] using hback.unpack.2)
  cases hrearm : s.params.adcRetryRearm with
  | true =>
    obtain ⟨t1, hlater, harm⟩ := State.armDeadline_after (s := s) (k := 3) (now := now) (t := s.attempt.2)
      (by rw [hattempt])
    rw [hattempt] at harm
    refine ⟨t1, Nat.le_trans hreached hlater, ?_⟩
    rw [hnext, if_pos ⟨Nat.succ_pos left, hrearm⟩, harm]
    simp only [State.atSecondAttempt, State.secondDeadline, firstAttempt, hrearm, if_true]
    rfl
  | false =>
    refine ⟨now, hreached, ?_⟩
    rw [hnext, if_neg (by simp [hrearm])]
    simp only [State.atSecondAttempt, State.secondDeadline, firstAttempt, hrearm]
    rfl

/-! ### ADC.COMPLETE -/

/-- ADC.COMPLETE of a pending conversion ends with what its attempts give. -/
theorem exec_adcComplete_of_attempts {s t : State} {ch : Nat} {r : Except ErrKind Value}
    (hphase : s.adc.phase = .converting)
    (h : s.completeAttempts (muxOf ch) s.params.adcCompleteTries = (r, t)) :
    exec (.adcComplete ch) s = .next (t.conclude r) :=
  congrArg (fun p => Host.Outcome.next (endOperation p)) ((if_pos hphase).trans h)

/-- More than `k` attempts are one more than `k` and some. -/
theorem exists_tries_eq_succ {n k : Nat} (h : k < n) : ∃ left, n = left + (k + 1) := ⟨n - (k + 1), by omega⟩

/-- Settles O27: one attempt, whose readback is this channel's with OS = 1, and the conversion read. -/
theorem adcCompleteReadsConversion : Obligations.AdcCompleteReadsConversion := by
  intro ch s z p1 c1 p2 c2 hphase htries hawaits hp1 hc1 hback hp2 hc2
  obtain ⟨left, htries⟩ := exists_tries_eq_succ htries
  obtain ⟨rfl, rfl, rfl, rfl⟩ : s.drawAt 1 = p1 ∧ s.drawAt 2 = c1 ∧ s.drawAt 3 = p2 ∧ s.drawAt 4 = c2 :=
    ⟨hawaits.draw 1 (by simp), hawaits.draw 2 (by simp), hawaits.draw 3 (by simp), hawaits.draw 4 (by simp)⟩
  rw [← muxOf_toNat] at hback
  obtain ⟨v, t, hv, hnow, hreached, hends⟩ :=
    State.completeAttempts_done (envAfter_zero s).symm hawaits.oracle (k := 0) hp1 hc1 hback left hp2 hc2
  exact ⟨v, t, hv, hnow, hreached, exec_adcComplete_of_attempts hphase (htries ▸ hends)⟩

/-- Settles O28: the channel is compared before the status, at each attempt. -/
theorem adcCompleteChannelMismatch : Obligations.AdcCompleteChannelMismatch := by
  intro ch os other s z p1 c1 n z' p2 c2 hphase hp1 hc1 hother
  rw [← muxOf_toNat] at hother
  refine ⟨fun htries hawaits hback => ?_, fun htries hawaits hpending hp2 hc2 hback => ?_⟩
  · obtain ⟨left, htries⟩ := exists_tries_eq_succ htries
    obtain ⟨rfl, rfl⟩ : s.drawAt 1 = p1 ∧ s.drawAt 2 = c1 := ⟨hawaits.draw 1 (by simp), hawaits.draw 2 (by simp)⟩
    obtain ⟨t, hnow, hreached, hends⟩ := State.completeAttempts_mismatch (envAfter_zero s).symm hawaits.oracle
      (k := 0) hp1 hc1 (left := left) hback hother
    exact ⟨t, hnow, hreached, exec_adcComplete_of_attempts hphase (htries ▸ hends)⟩
  · obtain ⟨left, htries⟩ := exists_tries_eq_succ htries
    rw [← muxOf_toNat] at hpending
    obtain ⟨t1, hreached, hagain⟩ := State.completeAttempts_again (left := left) hawaits hp1 hc1 hpending
    obtain ⟨rfl, rfl⟩ : _ = p2 ∧ _ = c2 := ⟨hawaits.draw_append 1 (by simp), hawaits.draw_append 2 (by simp)⟩
    obtain ⟨t2, hnow, hreached', hends⟩ := State.completeAttempts_mismatch
      (t := s.atSecondAttempt c1 (firstAttempt s.params z p1 c1 n).length t1) rfl hawaits.oracle hp2 hc2 (left := left)
      hback hother
    exact ⟨t1, t2, _, hreached, rfl, hnow, hreached',
      exec_adcComplete_of_attempts hphase (htries ▸ hagain.trans hends)⟩

/-- Settles O29: an attempt ends at the transaction that falls short, in the first as in the second, which begins where
the first left off. -/
theorem adcCompleteBusFailure : Obligations.AdcCompleteBusFailure := by
  intro ch s z p1 c1 n z' p2 c2 p3 c3 hphase
  rw [← muxOf_toNat]
  refine ⟨fun htries => ?_, fun htries hp1 hc1 hpending => ?_⟩
  · have henv : s.env = envAfter s 0 s.env.clock := (envAfter_zero s).symm
    obtain ⟨left, htries⟩ := exists_tries_eq_succ htries
    refine ⟨fun hawaits hp1 => ?_, fun hawaits hp1 hc1 => ?_, fun hawaits hp1 hc1 hback hp2 => ?_,
      fun hawaits hp1 hc1 hback hp2 hc2 => ?_⟩
    · obtain rfl : s.drawAt 1 = p1 := hawaits.draw 1 (by simp)
      obtain ⟨t, r, hr, hends⟩ := State.completeAttempts_noPointer henv hawaits.oracle hp1 (muxOf ch) left
      exact ⟨t, r, hr, exec_adcComplete_of_attempts hphase (htries ▸ hends)⟩
    · obtain ⟨rfl, rfl⟩ : s.drawAt 1 = p1 ∧ s.drawAt 2 = c1 := ⟨hawaits.draw 1 (by simp), hawaits.draw 2 (by simp)⟩
      obtain ⟨t, r, data, hr, hends⟩ := State.completeAttempts_short henv hawaits.oracle hp1 hc1 (muxOf ch) left
      exact ⟨t, r, data, hr, exec_adcComplete_of_attempts hphase (htries ▸ hends)⟩
    · obtain ⟨rfl, rfl, rfl⟩ : s.drawAt 1 = p1 ∧ s.drawAt 2 = c1 ∧ s.drawAt 3 = p2 :=
        ⟨hawaits.draw 1 (by simp), hawaits.draw 2 (by simp), hawaits.draw 3 (by simp)⟩
      obtain ⟨t, r, hr, hends⟩ := State.completeAttempts_done_noPointer henv hawaits.oracle hp1 hc1 hback left hp2
      exact ⟨t, r, hr, exec_adcComplete_of_attempts hphase (htries ▸ hends)⟩
    · obtain ⟨rfl, rfl, rfl, rfl⟩ : s.drawAt 1 = p1 ∧ s.drawAt 2 = c1 ∧ s.drawAt 3 = p2 ∧ s.drawAt 4 = c2 :=
        ⟨hawaits.draw 1 (by simp), hawaits.draw 2 (by simp), hawaits.draw 3 (by simp), hawaits.draw 4 (by simp)⟩
      obtain ⟨t, r, data, hr, hends⟩ := State.completeAttempts_done_short henv hawaits.oracle hp1 hc1 hback left hp2 hc2
      exact ⟨t, r, data, hr, exec_adcComplete_of_attempts hphase (htries ▸ hends)⟩
  · obtain ⟨left, htries⟩ := exists_tries_eq_succ htries
    have hagain {ds : List Draw} (hawaits : s.Awaits (firstAttempt s.params z p1 c1 n ++ ds)) :=
      State.completeAttempts_again (left := left) hawaits hp1 hc1 hpending
    refine ⟨fun hawaits hp2 => ?_, fun hawaits hp2 hc2 => ?_, fun hawaits hp2 hc2 hback hp3 => ?_,
      fun hawaits hp2 hc2 hback hp3 hc3 => ?_⟩
    · obtain ⟨t1, hreached, hagain⟩ := hagain hawaits
      obtain rfl : _ = p2 := hawaits.draw_append 1 (by simp)
      obtain ⟨t2, r, hr, hends⟩ := State.completeAttempts_noPointer
        (t := s.atSecondAttempt c1 (firstAttempt s.params z p1 c1 n).length t1) rfl hawaits.oracle hp2 (muxOf ch) left
      exact ⟨t1, t2, _, r, hreached, rfl, hr, exec_adcComplete_of_attempts hphase (htries ▸ hagain.trans hends)⟩
    · obtain ⟨t1, hreached, hagain⟩ := hagain hawaits
      obtain ⟨rfl, rfl⟩ : _ = p2 ∧ _ = c2 := ⟨hawaits.draw_append 1 (by simp), hawaits.draw_append 2 (by simp)⟩
      obtain ⟨t2, r, data, hr, hends⟩ := State.completeAttempts_short
        (t := s.atSecondAttempt c1 (firstAttempt s.params z p1 c1 n).length t1) rfl hawaits.oracle hp2 hc2 (muxOf ch)
        left
      exact ⟨t1, t2, _, r, data, hreached, rfl, hr, exec_adcComplete_of_attempts hphase (htries ▸ hagain.trans hends)⟩
    · obtain ⟨t1, hreached, hagain⟩ := hagain hawaits
      obtain ⟨rfl, rfl, rfl⟩ : _ = p2 ∧ _ = c2 ∧ _ = p3 :=
        ⟨hawaits.draw_append 1 (by simp), hawaits.draw_append 2 (by simp), hawaits.draw_append 3 (by simp)⟩
      obtain ⟨t2, r, hr, hends⟩ := State.completeAttempts_done_noPointer
        (t := s.atSecondAttempt c1 (firstAttempt s.params z p1 c1 n).length t1) rfl hawaits.oracle hp2 hc2 hback left
        hp3
      exact ⟨t1, t2, _, r, hreached, rfl, hr, exec_adcComplete_of_attempts hphase (htries ▸ hagain.trans hends)⟩
    · obtain ⟨t1, hreached, hagain⟩ := hagain hawaits
      obtain ⟨rfl, rfl, rfl, rfl⟩ : _ = p2 ∧ _ = c2 ∧ _ = p3 ∧ _ = c3 :=
        ⟨hawaits.draw_append 1 (by simp), hawaits.draw_append 2 (by simp), hawaits.draw_append 3 (by simp),
          hawaits.draw_append 4 (by simp)⟩
      obtain ⟨t2, r, data, hr, hends⟩ := State.completeAttempts_done_short
        (t := s.atSecondAttempt c1 (firstAttempt s.params z p1 c1 n).length t1) rfl hawaits.oracle hp2 hc2 hback left
        hp3 hc3
      exact ⟨t1, t2, _, r, data, hreached, rfl, hr, exec_adcComplete_of_attempts hphase (htries ▸ hagain.trans hends)⟩

/-- Settles O30: the second of two attempts is the last; and with none there is nothing to try. -/
theorem adcCompletePendingAfterTwoAttempts : Obligations.AdcCompletePendingAfterTwoAttempts := by
  intro ch s z p1 c1 n z' p2 c2 hphase
  refine ⟨fun htries hawaits hp1 hc1 hpending hp2 hc2 hback => ?_, fun htries => ?_⟩
  · rw [← muxOf_toNat] at hpending hback
    obtain ⟨t1, hreached, hagain⟩ := State.completeAttempts_again (left := 0) hawaits hp1 hc1 hpending
    obtain ⟨rfl, rfl⟩ : _ = p2 ∧ _ = c2 := ⟨hawaits.draw_append 1 (by simp), hawaits.draw_append 2 (by simp)⟩
    obtain ⟨t2, hnow, hreached', hends⟩ := State.completeAttempts_pending
      (t := s.atSecondAttempt c1 (firstAttempt s.params z p1 c1 n).length t1) rfl hawaits.oracle hp2 hc2 hback
    have htwo : s.completeAttempts (muxOf ch) s.params.adcCompleteTries = s.completeAttempts (muxOf ch) 2 := by
      rw [htries]
    exact ⟨t1, t2, _, hreached, hnow, hreached', rfl,
      exec_adcComplete_of_attempts hphase (htwo.trans (hagain.trans hends))⟩
  · exact exec_adcComplete_of_attempts (r := .error .pending) hphase (by rw [htries]; rfl)

/-- Settles O31: the second attempt reads the conversion as a first one would. -/
theorem adcCompleteSecondAttempt : Obligations.AdcCompleteSecondAttempt := by
  intro ch s z p1 c1 n z' p2 c2 p3 c3 hphase htries hawaits hp1 hc1 hpending hp2 hc2 hback hp3 hc3
  obtain ⟨left, htries⟩ := exists_tries_eq_succ htries
  rw [← muxOf_toNat] at hpending hback
  obtain ⟨t1, hreached, hagain⟩ := State.completeAttempts_again (left := left) hawaits hp1 hc1 hpending
  obtain ⟨rfl, rfl, rfl, rfl⟩ : _ = p2 ∧ _ = c2 ∧ _ = p3 ∧ _ = c3 :=
    ⟨hawaits.draw_append 1 (by simp), hawaits.draw_append 2 (by simp), hawaits.draw_append 3 (by simp),
      hawaits.draw_append 4 (by simp)⟩
  obtain ⟨v, t2, hv, hnow, hreached', hends⟩ := State.completeAttempts_done
    (t := s.atSecondAttempt c1 (firstAttempt s.params z p1 c1 n).length t1) rfl hawaits.oracle hp2 hc2 hback left hp3
    hc3
  exact ⟨v, t1, t2, _, hv, hreached, hnow, hreached', rfl,
    exec_adcComplete_of_attempts hphase (htries ▸ hagain.trans hends)⟩

/-! ### ADC.READC -/

/-- ADC.READC where the cache does not answer ends with what its refresh gives. -/
theorem exec_adcReadc_of_refresh {s t u : State} {ch : Nat} {force : Bool} {r : Except ErrKind Value}
    (hchecked : s.cacheChecked (muxOf ch) force = u) (hmiss : s.cacheHit (muxOf ch) force = false)
    (h : u.refreshSteps (muxOf ch) = (r, t)) : exec (.adcReadc ch force) s = .next (t.conclude r) := by
  simp only [exec, execAdcReadc, hmiss, hchecked, h]
  rfl

/-- The cache cannot answer a forced refresh, nor without a valid count, nor for another channel; the clock is then not
read. -/
theorem State.cache_cannotAnswer {s : State} {ch : Nat} {force : Bool}
    (h : force = true ∨ s.adc.cacheValid = false ∨ s.adc.cacheChannel.toNat ≠ min ch 7) :
    s.cacheChecked (muxOf ch) force = s ∧ s.cacheHit (muxOf ch) force = false := by
  have hno : (!force && s.adc.cacheValid && decide (s.adc.cacheChannel = muxOf ch)) = false := by
    obtain rfl | hinvalid | hother := h
    · rfl
    · rw [hinvalid, Bool.and_false, Bool.false_and]
    · rw [decide_eq_false (fun hsame => hother ((eq_muxOf_iff ..).1 hsame)), Bool.and_false]
  constructor
  · rw [State.cacheChecked, hno]
    rfl
  · rw [State.cacheHit, hno, Bool.false_and]

/-- A cache of the channel whose deadline the clock has reached when it is read does not answer. -/
theorem State.cache_expired {s : State} {ch : Nat} (hvalid : s.adc.cacheValid = true)
    (hchannel : s.adc.cacheChannel.toNat = min ch 7)
    (hlate : s.adc.deadline.toNat ≤ s.env.clock.toNat + (s.drawAt 0).advance) :
    s.cacheChecked (muxOf ch) false =
      { s with env := envAfter s 1 (clockForward s.env.clock (s.drawAt 0).advance) } ∧
    s.cacheHit (muxOf ch) false = false := by
  have hsame : s.adc.cacheChannel = muxOf ch := (eq_muxOf_iff ..).2 hchannel
  have hchecked : s.cacheChecked (muxOf ch) false = s.readClock := by
    simp [State.cacheChecked, hvalid, hsame]
  rw [State.readClock_after (envAfter_zero s).symm] at hchecked
  refine ⟨hchecked, ?_⟩
  have hlimit := s.adc.deadline.isLt
  have hreached : s.adc.deadline.toNat ≤ (clockForward s.env.clock (s.drawAt 0).advance).toNat := by
    rw [clockForward, BitVec.toNat_ofNat]
    omega
  rw [State.cacheHit, hchecked]
  simp [envAfter, hreached]

/-- A refresh whose completion succeeds sets a new deadline (R176). -/
theorem State.refreshSteps_of_done {s t u : State} {c : BitVec 3} {v : Value} {w : Half}
    (hstart : s.startIfIdle c = (.ok v, t)) (hphase : t.adc.phase = .converting)
    (hends : t.completeAttempts c t.params.adcCompleteTries = (.ok (.count w), u)) :
    s.refreshSteps c = (.ok (.count u.adc.lastRead), u.armDeadline) := by
  simp only [State.refreshSteps, hstart, State.completeSteps, if_pos hphase, hends]

/-- A refresh whose start fails ends with it. -/
theorem State.refreshSteps_of_error {s t : State} {c : BitVec 3} {e : ErrKind}
    (hstart : s.startIfIdle c = (.error e, t)) : s.refreshSteps c = (.error e, t) := by
  simp only [State.refreshSteps, hstart]

section Refresh

variable {s t : State} {k : Nat} {now : Timestamp} (h : t.env = envAfter s k now) (ho : s.env.devices = none)
include h ho

/-- A refresh of a pending conversion that is done at the first attempt. -/
theorem State.refreshSteps_pending {c : BitVec 3} (hphase : t.adc.phase = .converting)
    (htries : 0 < t.params.adcCompleteTries) (hp1 : 1 ≤ (s.drawAt (k + 1)).result)
    (hc1 : 2 ≤ (s.drawAt (k + 2)).result) (hback : ReadsBack (s.drawAt (k + 2)) c.toNat 1)
    (hp2 : 1 ≤ (s.drawAt (k + 3)).result) (hc2 : 2 ≤ (s.drawAt (k + 4)).result) :
    ∃ (v : Half) (t1 : Timestamp), v.toNat = bigEndian (s.drawAt (k + 4)).data[0] (s.drawAt (k + 4)).data[1] ∧
      now.toNat ≤ t1.toNat ∧ t.adc.deadline.toNat ≤ t1.toNat ∧
      t.refreshSteps c = (.ok (.count v), { t with
        adc := { t.adc with phase := .ready, lastRead := v, cacheValid := true, cacheChannel := c,
                            deadline := timeAfter t1 (latencyOf t.params t.adc.dr) }
        env := envAfter s (k + 6) t1
        history := registerReadEvents t.params 0x00 (s.drawAt (k + 4)) ++
          attemptEvents t.params t.adc.deadline (s.drawAt (k + 2)) ++ t.history }) := by
  obtain ⟨left, htries⟩ := exists_tries_eq_succ htries
  obtain ⟨v, read, hv, hnow, hreached, hends⟩ := State.completeAttempts_done h ho hp1 hc1 hback left hp2 hc2
  obtain ⟨t1, hlater, harm⟩ := State.armDeadline_after (s := s) (k := k + 5) (now := read)
    (t := (t.completeAttempts c (left + 1)).2) (by rw [hends])
  rw [hends] at harm
  refine ⟨v, t1, hv, Nat.le_trans hnow hlater, Nat.le_trans hreached hlater, ?_⟩
  rw [State.refreshSteps_of_done (if_pos hphase) hphase (htries ▸ hends), harm]

/-- A refresh whose start the bus takes, its conversion done at the first attempt. -/
theorem State.refreshSteps_started {c : BitVec 3} (hfree : t.adc.phase ≠ .converting)
    (htries : 0 < t.params.adcCompleteTries) (hw0 : 3 ≤ (s.drawAt k).result)
    (hp1 : 1 ≤ (s.drawAt (k + 3)).result) (hc1 : 2 ≤ (s.drawAt (k + 4)).result)
    (hback : ReadsBack (s.drawAt (k + 4)) c.toNat 1) (hp2 : 1 ≤ (s.drawAt (k + 5)).result)
    (hc2 : 2 ≤ (s.drawAt (k + 6)).result) :
    ∃ (v : Half) (t0 t1 : Timestamp), v.toNat = bigEndian (s.drawAt (k + 6)).data[0] (s.drawAt (k + 6)).data[1] ∧
      now.toNat ≤ t0.toNat ∧ t0.toNat ≤ t1.toNat ∧ (timeAfter t0 (latencyOf t.params t.adc.dr)).toNat ≤ t1.toNat ∧
      t.refreshSteps c = (.ok (.count v), { t with
        adc := { t.adc with phase := .ready, lastRead := v, cacheValid := true, cacheChannel := c,
                            deadline := timeAfter t1 (latencyOf t.params t.adc.dr) }
        env := envAfter s (k + 8) t1
        history := registerReadEvents t.params 0x00 (s.drawAt (k + 6)) ++
          attemptEvents t.params (timeAfter t0 (latencyOf t.params t.adc.dr)) (s.drawAt (k + 4)) ++
          t.startWrite c 1 3 :: t.history }) := by
  obtain ⟨t0, hnow, hstart⟩ := State.startSteps_taken h ho hfree hw0 c 1
  have hidle : t.startIfIdle c = t.startSteps c 1 := if_neg hfree
  obtain ⟨v, t1, hv, hlater, hreached, hrefresh⟩ := State.refreshSteps_pending (s := s) (k := k + 2) (now := t0)
    (t := (t.startSteps c 1).2) (by rw [hstart]) ho (by rw [hstart]) (by rw [hstart]; exact htries) hp1 hc1 hback hp2
    hc2
  have hsame : t.refreshSteps c = (t.startSteps c 1).2.refreshSteps c := by
    have hpending : (t.startSteps c 1).2.startIfIdle c = (.ok (.nat 0), (t.startSteps c 1).2) :=
      if_pos (by rw [hstart])
    simp only [State.refreshSteps, hidle, hpending]
    rw [hstart]
  rw [hstart] at hreached hrefresh hsame
  exact ⟨v, t0, t1, hv, hnow, hlater, hreached, hsame.trans hrefresh⟩

end Refresh

/-- Settles O36: the pending conversion is completed, and the deadline set anew. -/
theorem adcReadcResumesPending : Obligations.AdcReadcResumesPending := by
  intro ch force s z p1 c1 p2 c2 n1 hno hphase htries hawaits hp1 hc1 hback hp2 hc2
  obtain ⟨rfl, rfl, rfl, rfl⟩ : s.drawAt 1 = p1 ∧ s.drawAt 2 = c1 ∧ s.drawAt 3 = p2 ∧ s.drawAt 4 = c2 :=
    ⟨hawaits.draw 1 (by simp), hawaits.draw 2 (by simp), hawaits.draw 3 (by simp), hawaits.draw 4 (by simp)⟩
  obtain ⟨hchecked, hmiss⟩ := State.cache_cannotAnswer hno
  rw [← muxOf_toNat] at hback
  obtain ⟨v, t1, hv, -, hreached, hrefresh⟩ := State.refreshSteps_pending (envAfter_zero s).symm hawaits.oracle (k := 0)
    hphase htries hp1 hc1 hback hp2 hc2
  exact ⟨v, t1, hv, hreached, exec_adcReadc_of_refresh hchecked hmiss hrefresh⟩

/-- Settles O34: the look at the cache takes no choice, and the refresh starts and completes a conversion. -/
theorem adcReadcConverts : Obligations.AdcReadcConverts := by
  intro ch force s w0 n0 z p1 c1 p2 c2 n1 hno hfree htries hawaits hw0 hp1 hc1 hback hp2 hc2
  obtain ⟨rfl, rfl, rfl, rfl, rfl⟩ : s.drawAt 0 = w0 ∧ s.drawAt 3 = p1 ∧ s.drawAt 4 = c1 ∧ s.drawAt 5 = p2 ∧
      s.drawAt 6 = c2 :=
    ⟨hawaits.draw 0 (by simp), hawaits.draw 3 (by simp), hawaits.draw 4 (by simp), hawaits.draw 5 (by simp),
      hawaits.draw 6 (by simp)⟩
  obtain ⟨hchecked, hmiss⟩ := State.cache_cannotAnswer hno
  rw [← muxOf_toNat] at hback
  obtain ⟨v, t0, t1, hv, hnow, hlater, hreached, hrefresh⟩ := State.refreshSteps_started (envAfter_zero s).symm
    hawaits.oracle (k := 0) hfree htries hw0 hp1 hc1 hback hp2 hc2
  exact ⟨_, v, t0, t1, _, rfl, hv, rfl, hnow, hlater, hreached, exec_adcReadc_of_refresh hchecked hmiss hrefresh⟩

/-- Settles O35: the look at the cache takes one choice, the clock reading; what follows is the refresh. -/
theorem adcReadcExpiredCacheConverts : Obligations.AdcReadcExpiredCacheConverts := by
  intro ch s n w0 n0 z p1 c1 p2 c2 n1 hvalid hchannel hfree hlate
  refine ⟨fun hawaits htries hw0 hp1 hc1 hback hp2 hc2 => ?_, fun hawaits hw0 => ?_⟩
  · obtain ⟨rfl, rfl, rfl, rfl, rfl, rfl⟩ : s.drawAt 0 = n ∧ s.drawAt 1 = w0 ∧ s.drawAt 4 = p1 ∧ s.drawAt 5 = c1 ∧
        s.drawAt 6 = p2 ∧ s.drawAt 7 = c2 :=
      ⟨hawaits.draw 0 (by simp), hawaits.draw 1 (by simp), hawaits.draw 4 (by simp), hawaits.draw 5 (by simp),
        hawaits.draw 6 (by simp), hawaits.draw 7 (by simp)⟩
    obtain ⟨hchecked, hmiss⟩ := State.cache_expired hvalid hchannel hlate
    rw [← muxOf_toNat] at hback
    obtain ⟨v, t0, t1, hv, hnow, hlater, hreached, hrefresh⟩ := State.refreshSteps_started (k := 1)
      (t := { s with env := envAfter s 1 _ }) rfl hawaits.oracle hfree htries hw0 hp1 hc1 hback hp2 hc2
    exact ⟨v, t0, t1, _, hv, rfl, Nat.le_trans (clockForward_le _ _) hnow, hlater, hreached,
      exec_adcReadc_of_refresh hchecked hmiss hrefresh⟩
  · obtain ⟨rfl, rfl⟩ : s.drawAt 0 = n ∧ s.drawAt 1 = w0 := ⟨hawaits.draw 0 (by simp), hawaits.draw 1 (by simp)⟩
    obtain ⟨hchecked, hmiss⟩ := State.cache_expired hvalid hchannel hlate
    obtain ⟨t, r, -, hr, hstart⟩ := State.startSteps_notTaken (k := 1) (t := { s with env := envAfter s 1 _ }) rfl
      hawaits.oracle hfree hw0 (muxOf ch) 1
    exact ⟨t, r, hr,
      exec_adcReadc_of_refresh hchecked hmiss (State.refreshSteps_of_error ((if_neg hfree).trans hstart))⟩

end Sys2Proof.Machine

/-! PROOF. The write-ready gate (spec/43_eeprom.md R222, R223): its rounds in every environment, and under the
unrestricted oracle after any number of failed probes. -/

namespace Sys2Proof.Machine

/-! ### Choices in every environment -/

/-- From `s` to `t` the environment has made `k` choices, whatever devices it has. -/
structure State.Drawn (s : State) (k : Nat) (t : State) : Prop where
  script : t.env.script = s.env.script.drop k
  count : t.env.drawCount = s.env.drawCount + k

theorem State.Drawn.refl (s : State) : s.Drawn 0 s := ⟨rfl, rfl⟩

section Drawn

variable {s t : State} {k : Nat} (h : s.Drawn k t)
include h

theorem State.Drawn.nextDraw : t.nextDraw = s.drawAt k := by
  rw [State.nextDraw_eq_drawAt]
  simp [State.drawAt, h.script, h.count]

/-- One more choice, by any step that takes one. -/
theorem State.Drawn.succ {u : State} (hscript : u.env.script = t.env.script.tail)
    (hcount : u.env.drawCount = t.env.drawCount + 1) : s.Drawn (k + 1) u :=
  ⟨by rw [hscript, h.script, List.tail_drop], by rw [hcount, h.count, Nat.add_assoc]⟩

theorem State.Drawn.afterDraw : s.Drawn (k + 1) t.afterDraw := h.succ rfl rfl

theorem State.Drawn.sleepUntil (u : Timestamp) : s.Drawn (k + 1) (t.sleepUntil u) := h.succ rfl rfl

theorem State.Drawn.busWrite (bus : BusId) (addr : BusAddr) (bytes : List Byte) (hold : Bool) :
    s.Drawn (k + 1) (t.busWrite bus addr bytes hold).2 := h.succ rfl rfl

theorem State.Drawn.readClock : s.Drawn (k + 1) t.readClock := h.succ rfl rfl

theorem State.Drawn.armReadyTime : s.Drawn (k + 1) t.armReadyTime := h.succ rfl rfl

theorem State.Drawn.probe : s.Drawn (k + 2) t.probe.2 := (h.sleepUntil _).busWrite ..

end Drawn

/-! ### One round of the gate -/

/-- The clock after the sleep and the probe of a round that began with the clock at `c` and slept to `target`, `a` and
`b` the choices of the two. -/
def probeEnd (p : Params) (a b : Draw) (c target : Timestamp) : Timestamp :=
  clockForward (clockForward (laterOf c target) a.advance) (min b.advance (p.busTimeoutUs + p.transferUs))

theorem State.Drawn.probe_clock {s t : State} {k : Nat} (h : s.Drawn k t) :
    t.probe.2.env.clock = probeEnd t.params (s.drawAt k) (s.drawAt (k + 1)) t.env.clock t.ee.readyTime := by
  rw [← h.nextDraw, ← (h.sleepUntil t.ee.readyTime).nextDraw]
  rfl

theorem State.probe_history (s : State) :
    s.probe.2.history = probeEvent s.params s.probe.1 :: .sleep s.ee.readyTime :: s.history := rfl

/-- The clock read after a failed round. -/
theorem State.Drawn.failedRound_clock {s t : State} {j : Nat} (h : s.Drawn (3 * j) t) (hparams : t.params = s.params) :
    t.probe.2.armReadyTime.env.clock = s.clockAfterRound j t.env.clock t.ee.readyTime := by
  have hread : t.probe.2.armReadyTime.env.clock =
      clockForward t.probe.2.env.clock t.probe.2.nextDraw.advance := rfl
  rw [hread, h.probe_clock, h.probe.nextDraw, hparams]
  rfl

/-- A failed round with another attempt after it leaves the ready time counted from the clock read then. -/
theorem State.Drawn.failedRound_readyTime {s t : State} {j : Nat} (h : s.Drawn (3 * j) t)
    (hparams : t.params = s.params) :
    t.probe.2.armReadyTime.ee.readyTime =
      s.clockAfterRound j t.env.clock t.ee.readyTime + BitVec.ofNat 64 s.params.eeSettleUs := by
  rw [← h.failedRound_clock hparams, ← hparams]
  rfl

theorem gateEvents_cons (p : Params) (k : Timestamp × Int) (rounds : List (Timestamp × Int)) :
    gateEvents p (k :: rounds) = gateEvents p rounds ++ [probeEvent p k.2, .sleep k.1] := by
  simp [gateEvents]

theorem gateEvents_concat (p : Params) (k : Timestamp × Int) (rounds : List (Timestamp × Int)) :
    gateEvents p (rounds ++ [k]) = probeEvent p k.2 :: .sleep k.1 :: gateEvents p rounds := by
  simp [gateEvents]

/-! ### All rounds, in every environment -/

/-- How the gate ends with at most `tries` probes: at the first that is acknowledged, or with all of them failed. -/
def GateEnds (tries : Nat) (acknowledged : Bool) (rounds : List (Timestamp × Int)) : Prop :=
  (acknowledged = true ∧ ∃ before k, rounds = before ++ [k] ∧ k.2 = 0 ∧ ∀ b ∈ before, b.2 ≠ 0) ∨
  (acknowledged = false ∧ rounds.length = tries ∧ ∀ b ∈ rounds, b.2 ≠ 0)

theorem GateEnds.ne_nil {tries : Nat} {acknowledged : Bool} {rounds : List (Timestamp × Int)}
    (h : GateEnds tries acknowledged rounds) (htries : 0 < tries) : rounds ≠ [] := by
  rintro rfl
  obtain ⟨-, before, k, hnil, -⟩ | ⟨-, hlength, -⟩ := h
  · simp at hnil
  · exact absurd hlength (by simp; omega)

/-- A failed round before the others. -/
theorem GateEnds.cons {left : Nat} {acknowledged : Bool} {rounds : List (Timestamp × Int)}
    (h : GateEnds left acknowledged rounds) {k : Timestamp × Int} (hk : k.2 ≠ 0) :
    GateEnds (left + 1) acknowledged (k :: rounds) := by
  obtain ⟨hack, before, last, rfl, hlast, hbefore⟩ | ⟨hack, hlength, hrounds⟩ := h
  · exact .inl ⟨hack, k :: before, last, rfl, hlast, List.forall_mem_cons.2 ⟨hk, hbefore⟩⟩
  · exact .inr ⟨hack, by rw [List.length_cons, hlength], List.forall_mem_cons.2 ⟨hk, hrounds⟩⟩

/-- The ways one round goes on: an acknowledged probe ends the gate, and so does the last attempt. -/
theorem State.gate_of_acknowledged {s : State} (hack : s.probe.1 = 0) (left : Nat) :
    s.gate (left + 1) = (true, s.probe.2) := by
  simp only [State.gate, if_pos hack]

theorem State.gate_of_lastFailed {s : State} (hfailed : s.probe.1 ≠ 0) : s.gate 1 = (false, s.probe.2) := by
  simp only [State.gate, if_neg hfailed, Nat.lt_irrefl, if_false]

theorem State.gate_of_failed {s : State} (hfailed : s.probe.1 ≠ 0) (left : Nat) :
    s.gate (left + 2) = s.probe.2.armReadyTime.gate (left + 1) := by
  rw [State.gate]
  simp only [if_neg hfailed, Nat.succ_pos, if_true]

theorem State.probe_readyTime (s : State) : s.probe.2.ee.readyTime = s.ee.readyTime := by rw [s.probe_quiet.ee]

theorem State.probe_gateEvents (s : State) :
    s.probe.2.history = gateEvents s.params [(s.ee.readyTime, s.probe.1)] ++ s.history := s.probe_history

/-- The gate is a run of rounds, each choosing from where the last left off. -/
theorem State.gate_rounds (s : State) (tries : Nat) {t : State} {j : Nat} (hd : s.Drawn (3 * j) t)
    (hparams : t.params = s.params) :
    ∃ rounds : List (Timestamp × Int),
      (t.gate tries).2.history = gateEvents s.params rounds ++ t.history ∧ rounds.length ≤ tries ∧
      s.GateRounds j t.env.clock t.ee.readyTime rounds ∧
      (t.gate tries).2.ee.readyTime = (rounds.getLast?.map Prod.fst).getD t.ee.readyTime ∧
      GateEnds tries (t.gate tries).1 rounds := by
  induction tries generalizing t j with
  | zero => exact ⟨[], rfl, Nat.le_refl _, trivial, rfl, .inr ⟨rfl, rfl, by simp⟩⟩
  | succ left ih =>
    have hone : s.GateRounds j t.env.clock t.ee.readyTime [(t.ee.readyTime, t.probe.1)] :=
      ⟨rfl, fun h => absurd rfl h⟩
    by_cases hack : t.probe.1 = 0
    · rw [State.gate_of_acknowledged hack, ← hparams]
      exact ⟨_, t.probe_gateEvents, Nat.succ_le_succ (Nat.zero_le left), hone, t.probe_readyTime,
        .inl ⟨rfl, [], _, rfl, hack, by simp⟩⟩
    cases left with
    | zero =>
      rw [State.gate_of_lastFailed hack, ← hparams]
      exact ⟨_, t.probe_gateEvents, Nat.le_refl _, hone, t.probe_readyTime, .inr ⟨rfl, rfl, by simpa using hack⟩⟩
    | succ left =>
      have hnext : s.Drawn (3 * (j + 1)) t.probe.2.armReadyTime := hd.probe.armReadyTime
      have hkept : t.probe.2.armReadyTime.params = s.params := by
        rw [State.armReadyTime_params, t.probe_quiet.params, hparams]
      obtain ⟨rounds, hrest, hlength, hrounds, hready, hends⟩ := ih hnext hkept
      have hne : rounds ≠ [] := hends.ne_nil (Nat.succ_pos left)
      rw [hd.failedRound_clock hparams, hd.failedRound_readyTime hparams] at hrounds
      rw [State.gate_of_failed hack]
      refine ⟨(t.ee.readyTime, t.probe.1) :: rounds, ?_, Nat.succ_le_succ hlength, ⟨rfl, fun _ => ⟨hack, hrounds⟩⟩,
        ?_, hends.cons hack⟩
      · rw [hrest, State.armReadyTime_history, t.probe_history, hparams, gateEvents_cons, List.append_assoc]
        rfl
      · rw [hready, List.getLast?_cons_of_ne_nil hne, List.getLast?_eq_some_getLast hne]
        rfl

/-- Settles O43: the rounds of a gate that begins with the state's own next choice. -/
theorem readyGateProbes : Obligations.ReadyGateProbes := by
  intro tries s
  obtain ⟨rounds, hhist, hlength, hrounds, hready, hends⟩ := s.gate_rounds (j := 0) tries (.refl s) rfl
  obtain ⟨r, hend⟩ := endReady_eq_finish (s.gate tries)
  have hres : r = (endReady (s.gate tries)).res := by rw [hend]; rfl
  refine ⟨(s.gate tries).2.finish r, rounds, congrArg Host.Outcome.next hend, (s.gate_quietEe tries).finish r,
    congrArg (List.cons _) hhist, hlength, hrounds, hready, ?_⟩
  rw [State.finish_res, hres, endReady]
  obtain ⟨hack, hlast⟩ | ⟨hack, hall⟩ := hends
  · rw [if_pos hack]
    exact .inl ⟨rfl, hlast⟩
  · rw [if_neg (by simp [hack])]
    exact .inr ⟨rfl, hall⟩

/-! ### The gate under the unrestricted oracle -/

section Oracle

variable {s t : State} {k : Nat} {now : Timestamp} (h : t.env = envAfter s k now) (ho : s.env.devices = none)
include h ho

/-- A probe: two choices and two events. -/
theorem State.probe_after :
    t.probe = (transferResult (s.drawAt (k + 1)).result 0, { t with
      env := envAfter s (k + 2) (probeEnd t.params (s.drawAt k) (s.drawAt (k + 1)) now t.ee.readyTime)
      history := probeEvent t.params (transferResult (s.drawAt (k + 1)).result 0) :: .sleep t.ee.readyTime ::
        t.history }) := by
  have hdrawn : s.Drawn k t := ⟨by rw [h]; rfl, by rw [h]; rfl⟩
  have hclock := hdrawn.probe_clock
  rw [h] at hclock
  obtain ⟨slept, -, -, hsleep⟩ := State.sleepUntil_after h t.ee.readyTime
  obtain ⟨now', -, hwrite⟩ := State.busWrite_after (s := s) (k := k + 1) (c := slept) (t := t.sleepUntil t.ee.readyTime)
    (by rw [hsleep]) ho t.params.eeBus (eeAddr t.params) [] false
  have hprobe : t.probe = _ := hwrite
  rw [hsleep] at hprobe
  rw [hprobe] at hclock
  have hnow : now' = _ := hclock
  rw [hprobe, hnow]
  rfl

omit ho in
/-- The ready time counted from the clock read now. -/
theorem State.armReadyTime_after :
    t.armReadyTime = { t with
      ee := { readyTime := clockForward now (s.drawAt k).advance + BitVec.ofNat 64 t.params.eeSettleUs }
      env := envAfter s (k + 1) (clockForward now (s.drawAt k).advance) } := by
  rw [State.armReadyTime, State.readClock_after h]
  rfl

/-- The probe that is acknowledged ends the gate. -/
theorem State.gate_acknowledged (hack : 0 ≤ (s.drawAt (k + 1)).result) (left : Nat) :
    ∃ now' : Timestamp, now.toNat ≤ now'.toNat ∧ t.ee.readyTime.toNat ≤ now'.toNat ∧
      t.gate (left + 1) = (true, { t with
        env := envAfter s (k + 2) now'
        history := probeEvent t.params 0 :: .sleep t.ee.readyTime :: t.history }) := by
  have hprobe := State.probe_after h ho
  rw [show transferResult (s.drawAt (k + 1)).result 0 = 0 from transferResult_of_ge (len := 0) hack] at hprobe
  refine ⟨probeEnd t.params (s.drawAt k) (s.drawAt (k + 1)) now t.ee.readyTime, ?_, ?_, ?_⟩
  · exact Nat.le_trans (le_laterOf_left _ _) (Nat.le_trans (clockForward_le _ _) (clockForward_le _ _))
  · exact Nat.le_trans (le_laterOf_right _ _) (Nat.le_trans (clockForward_le _ _) (clockForward_le _ _))
  · rw [State.gate_of_acknowledged (by rw [hprobe]), hprobe]

/-- The last probe, failed, ends the gate too. -/
theorem State.gate_lastFailed (hfailed : (s.drawAt (k + 1)).result < 0) :
    ∃ (now' : Timestamp) (r : Int), now.toNat ≤ now'.toNat ∧ t.ee.readyTime.toNat ≤ now'.toNat ∧ r < 0 ∧
      t.gate 1 = (false, { t with
        env := envAfter s (k + 2) now'
        history := probeEvent t.params r :: .sleep t.ee.readyTime :: t.history }) := by
  have hprobe := State.probe_after h ho
  have hr : transferResult (s.drawAt (k + 1)).result 0 < 0 := transferResult_of_lt (len := 0) hfailed
  refine ⟨probeEnd t.params (s.drawAt k) (s.drawAt (k + 1)) now t.ee.readyTime, _, ?_, ?_, hr, ?_⟩
  · exact Nat.le_trans (le_laterOf_left _ _) (Nat.le_trans (clockForward_le _ _) (clockForward_le _ _))
  · exact Nat.le_trans (le_laterOf_right _ _) (Nat.le_trans (clockForward_le _ _) (clockForward_le _ _))
  · rw [State.gate_of_lastFailed (by rw [hprobe]; exact Int.ne_of_lt hr), hprobe]

end Oracle

/-- The clock after a failed round, by its probe's end and the reading that follows. -/
theorem State.clockAfterRound_eq (s : State) (j : Nat) (c target : Timestamp) :
    s.clockAfterRound j c target = clockForward (probeEnd s.params (s.drawAt (3 * j)) (s.drawAt (3 * j + 1)) c target)
      (s.drawAt (3 * j + 2)).advance := rfl

/-- A failed round that another follows. -/
theorem State.gate_failedRound {s t : State} {j : Nat} {c : Timestamp} (h : t.env = envAfter s (3 * j) c)
    (ho : s.env.devices = none) (hparams : t.params = s.params) (hfailed : (s.drawAt (3 * j + 1)).result < 0)
    (left : Nat) :
    ∃ r : Int, r < 0 ∧ t.gate (left + 2) = State.gate { t with
        ee := { readyTime := s.clockAfterRound j c t.ee.readyTime + BitVec.ofNat 64 s.params.eeSettleUs }
        env := envAfter s (3 * (j + 1)) (s.clockAfterRound j c t.ee.readyTime)
        history := probeEvent t.params r :: .sleep t.ee.readyTime :: t.history } (left + 1) := by
  have hprobe := State.probe_after h ho
  have hr : transferResult (s.drawAt (3 * j + 1)).result 0 < 0 := transferResult_of_lt (len := 0) hfailed
  refine ⟨_, hr, ?_⟩
  rw [State.gate_of_failed (by rw [hprobe]; exact Int.ne_of_lt hr), hprobe,
    State.armReadyTime_after (s := s) (k := 3 * j + 2) rfl, State.clockAfterRound_eq, hparams]
  rfl

/-- The gate after `n` failed rounds, at least one attempt left: where it then sleeps to is as the rounds say. -/
theorem State.gate_after_fails {s t : State} {j n : Nat} {c : Timestamp} (h : t.env = envAfter s (3 * j) c)
    (ho : s.env.devices = none) (hparams : t.params = s.params)
    (hfailed : ∀ i, i < n → (s.drawAt (3 * (j + i) + 1)).result < 0) (left : Nat) :
    ∃ (before : List (Timestamp × Int)) (ready now : Timestamp),
      before.length = n ∧ (∀ b ∈ before, b.2 < 0) ∧ c.toNat ≤ now.toNat ∧
      (∀ r : Int, s.GateRounds j c t.ee.readyTime (before ++ [(ready, r)])) ∧
      t.gate (n + (left + 1)) = State.gate { t with
        ee := { readyTime := ready }
        env := envAfter s (3 * (j + n)) now
        history := gateEvents s.params before ++ t.history } (left + 1) := by
  induction n generalizing t j c with
  | zero =>
    refine ⟨[], t.ee.readyTime, c, rfl, by simp, Nat.le_refl _, fun r => ⟨rfl, fun h => absurd rfl h⟩, ?_⟩
    rw [Nat.zero_add]
    exact congrArg (fun e => State.gate { t with env := e } (left + 1)) h
  | succ n ih =>
    obtain ⟨r, hr, hround⟩ := State.gate_failedRound h ho hparams (hfailed 0 (Nat.succ_pos n)) (n + left)
    obtain ⟨before, ready, now, hlength, hneg, hnow, hrounds, hgate⟩ := ih (j := j + 1)
      (c := s.clockAfterRound j c t.ee.readyTime) (t := { t with
        ee := { readyTime := s.clockAfterRound j c t.ee.readyTime + BitVec.ofNat 64 s.params.eeSettleUs }
        env := envAfter s (3 * (j + 1)) (s.clockAfterRound j c t.ee.readyTime)
        history := probeEvent t.params r :: .sleep t.ee.readyTime :: t.history }) rfl hparams fun i hi => by
        have := hfailed (i + 1) (Nat.succ_lt_succ hi)
        rwa [show j + 1 + i = j + (i + 1) by omega]
    refine ⟨(t.ee.readyTime, r) :: before, ready, now, by rw [List.length_cons, hlength],
      List.forall_mem_cons.2 ⟨hr, hneg⟩, Nat.le_trans ?_ hnow,
      fun last => ⟨rfl, fun _ => ⟨Int.ne_of_lt hr, hrounds last⟩⟩, ?_⟩
    · exact Nat.le_trans (le_laterOf_left _ _) (Nat.le_trans (clockForward_le _ _)
        (Nat.le_trans (clockForward_le _ _) (clockForward_le _ _)))
    · rw [show n + 1 + (left + 1) = n + left + 2 by omega, hround, show n + left + 1 = n + (left + 1) by omega, hgate,
        gateEvents_cons, hparams, show j + 1 + n = j + (n + 1) by omega, List.append_assoc]
      rfl

/-! ### The choices of failed rounds -/

theorem roundDraws_cons (f : Draw × Draw × Draw) (fails : List (Draw × Draw × Draw)) :
    roundDraws (f :: fails) = f.1 :: f.2.1 :: f.2.2 :: roundDraws fails := rfl

theorem roundDraws_length (fails : List (Draw × Draw × Draw)) : (roundDraws fails).length = 3 * fails.length := by
  induction fails with
  | nil => rfl
  | cons f fails ih => simp only [roundDraws_cons, List.length_cons, ih]; omega

/-- The probe's choice of each round. -/
theorem roundDraws_probe (fails : List (Draw × Draw × Draw)) (i : Nat) :
    (roundDraws fails)[3 * i + 1]? = fails[i]?.map fun f => f.2.1 := by
  induction fails generalizing i with
  | nil => rfl
  | cons f fails ih =>
    cases i with
    | zero => rfl
    | succ i => exact ih i

/-- The probes of the rounds awaited fail. -/
theorem State.Awaits.failedProbes {s : State} {fails : List (Draw × Draw × Draw)} {ds : List Draw}
    (h : s.Awaits (roundDraws fails ++ ds)) (hneg : ∀ f ∈ fails, f.2.1.result < 0) (i : Nat) (hi : i < fails.length) :
    (s.drawAt (3 * (0 + i) + 1)).result < 0 := by
  have hlength := roundDraws_length fails
  have hplace : 3 * i + 1 < (roundDraws fails).length := by omega
  have hprobe : (roundDraws fails)[3 * i + 1] = fails[i].2.1 := by
    rw [← Option.some_inj, ← List.getElem?_eq_getElem hplace, roundDraws_probe, List.getElem?_eq_getElem hi]
    rfl
  rw [Nat.zero_add, h.draw (3 * i + 1) (by rw [List.length_append]; omega), List.getElem_append_left hplace, hprobe]
  exact hneg _ (List.getElem_mem hi)

/-- The choices that follow those of the rounds. -/
theorem State.Awaits.afterRounds {s : State} {fails : List (Draw × Draw × Draw)} {ds : List Draw}
    (h : s.Awaits (roundDraws fails ++ ds)) (j : Nat) (hj : j < ds.length) :
    s.drawAt (3 * (0 + fails.length) + j) = ds[j] := by
  rw [Nat.zero_add, ← roundDraws_length]
  exact h.draw_append j hj

/-- After the failed rounds, the probe that is acknowledged. -/
theorem State.Awaits.gate_acknowledged {s : State} {fails : List (Draw × Draw × Draw)} {z p : Draw} {ds : List Draw}
    (h : s.Awaits (roundDraws fails ++ z :: p :: ds)) (hneg : ∀ f ∈ fails, f.2.1.result < 0) (hack : 0 ≤ p.result)
    {tries : Nat} (htries : fails.length < tries) :
    ∃ (before : List (Timestamp × Int)) (ready now : Timestamp),
      before.length = fails.length ∧ (∀ b ∈ before, b.2 < 0) ∧
      s.GateRounds 0 s.env.clock s.ee.readyTime (before ++ [(ready, 0)]) ∧
      ready.toNat ≤ now.toNat ∧ s.env.clock.toNat ≤ now.toNat ∧
      s.gate tries = (true, { s with
        ee := { readyTime := ready }
        env := envAfter s (3 * fails.length + 2) now
        history := gateEvents s.params (before ++ [(ready, 0)]) ++ s.history }) := by
  have hp : s.drawAt (3 * (0 + fails.length) + 1) = p := h.afterRounds 1 (by simp)
  obtain ⟨left, rfl⟩ : ∃ left, tries = fails.length + (left + 1) := ⟨tries - fails.length - 1, by omega⟩
  obtain ⟨before, ready, now, hlength, hbefore, hnow, hrounds, hgate⟩ :=
    State.gate_after_fails (j := 0) (envAfter_zero s).symm h.oracle rfl (h.failedProbes hneg) left
  obtain ⟨t, hlater, hready, hend⟩ := State.gate_acknowledged (k := 3 * (0 + fails.length)) (now := now)
    (t := { s with
      ee := { readyTime := ready }
      env := envAfter s (3 * (0 + fails.length)) now
      history := gateEvents s.params before ++ s.history }) rfl h.oracle (hp ▸ hack) left
  refine ⟨before, ready, t, hlength, hbefore, hrounds 0, hready, Nat.le_trans hnow hlater, ?_⟩
  rw [hgate, hend, gateEvents_concat, Nat.zero_add]
  rfl

/-- After the failed rounds, the last probe, which fails too. -/
theorem State.Awaits.gate_lastFailed {s : State} {fails : List (Draw × Draw × Draw)} {z p : Draw} {ds : List Draw}
    (h : s.Awaits (roundDraws fails ++ z :: p :: ds)) (hneg : ∀ f ∈ fails, f.2.1.result < 0) (hfailed : p.result < 0) :
    ∃ (before : List (Timestamp × Int)) (ready now : Timestamp) (r : Int),
      before.length = fails.length ∧ (∀ b ∈ before, b.2 < 0) ∧ r < 0 ∧
      s.GateRounds 0 s.env.clock s.ee.readyTime (before ++ [(ready, r)]) ∧
      ready.toNat ≤ now.toNat ∧ s.env.clock.toNat ≤ now.toNat ∧
      s.gate (fails.length + 1) = (false, { s with
        ee := { readyTime := ready }
        env := envAfter s (3 * fails.length + 2) now
        history := gateEvents s.params (before ++ [(ready, r)]) ++ s.history }) := by
  have hp : s.drawAt (3 * (0 + fails.length) + 1) = p := h.afterRounds 1 (by simp)
  obtain ⟨before, ready, now, hlength, hbefore, hnow, hrounds, hgate⟩ :=
    State.gate_after_fails (j := 0) (envAfter_zero s).symm h.oracle rfl (h.failedProbes hneg) 0
  obtain ⟨t, r, hlater, hready, hr, hend⟩ := State.gate_lastFailed (k := 3 * (0 + fails.length)) (now := now)
    (t := { s with
      ee := { readyTime := ready }
      env := envAfter s (3 * (0 + fails.length)) now
      history := gateEvents s.params before ++ s.history }) rfl h.oracle (hp ▸ hfailed)
  refine ⟨before, ready, t, r, hlength, hbefore, hr, hrounds r, hready, Nat.le_trans hnow hlater, ?_⟩
  rw [hgate, hend, gateEvents_concat, Nat.zero_add]
  rfl

/-- Settles O44: after the failed rounds the gate is where its last probe decides. -/
theorem readyProbeOutcomes : Obligations.ReadyProbeOutcomes := by
  intro tries s fails z p hawaits hneg
  refine ⟨fun htries hack => ?_, fun htries hfailed => ?_⟩
  · obtain ⟨before, ready, now, hlength, hbefore, hrounds, hready, hnow, hgate⟩ :=
      hawaits.gate_acknowledged hneg hack htries
    refine ⟨before, ready, now, hlength, hbefore, hrounds, hready, hnow, ?_⟩
    rw [exec, execEeReady, hgate]
    rfl
  · obtain ⟨before, ready, now, r, hlength, hbefore, hr, hrounds, hready, hnow, hgate⟩ :=
      hawaits.gate_lastFailed hneg hfailed
    refine ⟨before, ready, now, r, hlength, hbefore, hr, hrounds, hready, hnow, ?_⟩
    rw [exec, execEeReady, ← htries, hgate]
    rfl

end Sys2Proof.Machine

/-! PROOF. EE.WRITE (spec/43_eeprom.md R223): the page write after its gate, under the unrestricted oracle and by its
transactions in every environment. -/

namespace Sys2Proof.Machine

/-! ### The page write, by how its gate ends -/

/-- The gate is exhausted: no page write. -/
theorem State.writePageRaw_of_notReady {s : State} (h : (s.gate s.params.eeWriteTries).1 = false) (id : Nat)
    (content : List Byte) : s.writePageRaw id content = (.notReady, (s.gate s.params.eeWriteTries).2) := by
  simp only [State.writePageRaw, h, Bool.false_eq_true, if_false]

/-- The transaction of a page write, from the state the gate left. -/
def State.pageWrite (s : State) (id : Nat) (content : List Byte) : Int × State :=
  s.busWrite s.params.eeBus (eeAddr s.params) (bigEndianBytes (id * s.params.eePageSize) ++ content) false

theorem State.pageWrite_history (s : State) (id : Nat) (content : List Byte) :
    (s.pageWrite id content).2.history = pageWriteEvent s.params id content (s.pageWrite id content).1 :: s.history :=
  rfl

section Ready

variable {s g : State} (h : s.gate s.params.eeWriteTries = (true, g)) {id : Nat} {content : List Byte}
include h

theorem State.writePageRaw_of_ready :
    s.writePageRaw id content =
      if (g.pageWrite id content).1 = 34 then (.none, (g.pageWrite id content).2.armReadyTime)
      else (.bus, (g.pageWrite id content).2) := by
  have hparams : g.params = s.params := by rw [← (s.gate_quietEe s.params.eeWriteTries).params, h]
  simp only [State.writePageRaw, h, if_true, State.pageWrite, hparams, pageAddrBytes_eq]

theorem State.writePageRaw_of_taken (hr : (g.pageWrite id content).1 = 34) :
    s.writePageRaw id content = (.none, (g.pageWrite id content).2.armReadyTime) := by
  rw [State.writePageRaw_of_ready h, if_pos hr]

theorem State.writePageRaw_of_short (hr : (g.pageWrite id content).1 ≠ 34) :
    s.writePageRaw id content = (.bus, (g.pageWrite id content).2) := by
  rw [State.writePageRaw_of_ready h, if_neg hr]

end Ready

/-! ### EE.WRITE under the unrestricted oracle -/

/-- The bytes read are those that stand at the addresses. -/
theorem Memory.readBytes_eq_some {m : Memory} {bs : List Byte} {a : Nat}
    (h : ∀ i (hi : i < bs.length), m.lookup (a + i) = some bs[i]) : m.readBytes a bs.length = some bs := by
  induction bs generalizing a with
  | nil => rfl
  | cons b bs ih =>
    have hfirst : m.lookup a = some b := h 0 (Nat.succ_pos _)
    have hrest : m.readBytes (a + 1) bs.length = some bs := ih fun i hi => by
      rw [show a + 1 + i = a + (i + 1) by omega]
      exact h (i + 1) (Nat.succ_lt_succ hi)
    simp only [List.length_cons, Memory.readBytes, hfirst, hrest]

/-- All of a PBUF that holds a page. -/
theorem Memory.readPbuf_eq_some {m : Memory} {b : Page} (h : ∀ a (h : a < 32), m.lookup a = some b[a]) :
    m.readBytes 0 pbufSize = some b.toList := by
  have hread := Memory.readBytes_eq_some (m := m) (bs := b.toList) (a := 0) fun i hi => by
    rw [Vector.length_toList] at hi
    rw [Nat.zero_add, h i hi, Vector.getElem_toList]
  rwa [Vector.length_toList] at hread

/-- The transaction of a page write: one choice and one event. -/
theorem State.pageWrite_after {s t : State} {k : Nat} {now : Timestamp} (h : t.env = envAfter s k now)
    (ho : s.env.devices = none) (id : Nat) {content : List Byte} (hlength : content.length = 32) :
    ∃ now' : Timestamp, now.toNat ≤ now'.toNat ∧
      t.pageWrite id content = (transferResult (s.drawAt k).result 34, { t with
        env := envAfter s (k + 1) now'
        history := pageWriteEvent t.params id content (transferResult (s.drawAt k).result 34) :: t.history }) := by
  have hwrite := State.busWrite_after h ho t.params.eeBus (eeAddr t.params)
    (bigEndianBytes (id * t.params.eePageSize) ++ content) false
  rwa [List.length_append, hlength] at hwrite

section Gated

variable {s t g : State} (hgate : t.gate t.params.eeWriteTries = (true, g)) {k : Nat} {now : Timestamp}
  (h : g.env = envAfter s k now) (ho : s.env.devices = none) (id : Nat) {content : List Byte}
  (hlength : content.length = 32)
include hgate h ho hlength

/-- A page write that is taken: the transaction and a clock reading, from which the ready time is counted. -/
theorem State.writePageRaw_taken (hw : 34 ≤ (s.drawAt k).result) :
    ∃ now' : Timestamp, now.toNat ≤ now'.toNat ∧
      t.writePageRaw id content = (.none, { g with
        ee := { readyTime := now' + BitVec.ofNat 64 g.params.eeSettleUs }
        env := envAfter s (k + 2) now'
        history := pageWriteEvent g.params id content 34 :: g.history }) := by
  obtain ⟨now', hlater, hwrite⟩ := State.pageWrite_after h ho id hlength
  rw [show transferResult (s.drawAt k).result 34 = 34 from transferResult_of_ge (len := 34) hw] at hwrite
  refine ⟨_, Nat.le_trans hlater (clockForward_le _ (s.drawAt (k + 1)).advance), ?_⟩
  rw [State.writePageRaw_of_taken hgate (by rw [hwrite]), hwrite, State.armReadyTime_after (s := s) (k := k + 1) rfl]

/-- A page write that falls short leaves the gate's ready time. -/
theorem State.writePageRaw_short (hw : (s.drawAt k).result < 34) :
    ∃ (now' : Timestamp) (r : Int), r < 34 ∧
      t.writePageRaw id content = (.bus, { g with
        env := envAfter s (k + 1) now'
        history := pageWriteEvent g.params id content r :: g.history }) := by
  obtain ⟨now', -, hwrite⟩ := State.pageWrite_after h ho id hlength
  have hr : transferResult (s.drawAt k).result 34 < 34 := transferResult_of_lt (len := 34) hw
  refine ⟨now', _, hr, ?_⟩
  rw [State.writePageRaw_of_short hgate (by rw [hwrite]; exact Int.ne_of_lt hr), hwrite]

end Gated

/-- Settles O45: the gate after the failed rounds, the page write, and a clock reading where it was taken. -/
theorem eeWriteSendsPage : Obligations.EeWriteSendsPage := by
  intro id s b fails z p w n hid hpbuf htries hneg hack
  have hexec := exec_eeWrite_of_written hid (Memory.readPbuf_eq_some hpbuf)
  have hlength : b.toList.length = 32 := Vector.length_toList
  refine ⟨fun hawaits htaken => ?_, fun hawaits hshort => ?_⟩
  · have hw : s.drawAt (3 * (0 + fails.length) + 2) = w := hawaits.afterRounds 2 (by simp)
    rw [Nat.zero_add] at hw
    obtain ⟨before, ready, now, hbefore, hresults, hrounds, hready, hnow, hgate⟩ :=
      hawaits.gate_acknowledged hneg hack htries
    obtain ⟨now', hlater, hpage⟩ := State.writePageRaw_taken hgate rfl hawaits.oracle id hlength (hw ▸ htaken)
    refine ⟨before, ready, now', hbefore, hresults, hrounds, Nat.le_trans hready hlater, Nat.le_trans hnow hlater, ?_⟩
    rw [hexec, hpage]
    rfl
  · have hw : s.drawAt (3 * (0 + fails.length) + 2) = w := hawaits.afterRounds 2 (by simp)
    rw [Nat.zero_add] at hw
    obtain ⟨before, ready, now, hbefore, hresults, hrounds, -, -, hgate⟩ :=
      hawaits.gate_acknowledged hneg hack htries
    obtain ⟨now', r, hr, hpage⟩ := State.writePageRaw_short hgate rfl hawaits.oracle id hlength (hw ▸ hshort)
    refine ⟨before, ready, now', r, hbefore, hresults, hr, hrounds, ?_⟩
    rw [hexec, hpage]
    rfl

/-! ### EE.WRITE in every environment -/

theorem transfers_append (h h' : List Event) : transfers (h ++ h') = transfers h ++ transfers h' :=
  List.filter_append ..

/-- The transactions of the gate's rounds, in order: their probes. -/
theorem transfers_gateEvents (p : Params) (rounds : List (Timestamp × Int)) :
    (transfers (gateEvents p rounds)).reverse = rounds.map fun k => probeEvent p k.2 := by
  induction rounds with
  | nil => rfl
  | cons k rounds ih =>
    rw [gateEvents_cons, transfers_append, List.reverse_append, ih]
    rfl

/-- The gate by its transactions: failed probes, and then one that is acknowledged or no more of them. -/
theorem State.gate_probes (s : State) (tries : Nat) :
    ∃ (evs : List Event) (fails : List Int),
      (s.gate tries).2.history = evs ++ s.history ∧ (∀ f ∈ fails, f ≠ 0) ∧
      (((s.gate tries).1 = true ∧ fails.length < tries ∧
          (transfers evs).reverse = fails.map (probeEvent s.params) ++ [probeEvent s.params 0]) ∨
        ((s.gate tries).1 = false ∧ fails.length = tries ∧
          (transfers evs).reverse = fails.map (probeEvent s.params))) := by
  obtain ⟨rounds, hhist, hlength, -, -, hends⟩ := s.gate_rounds (j := 0) tries (.refl s) rfl
  obtain ⟨hack, before, k, rfl, hk, hbefore⟩ | ⟨hack, hall, hfailed⟩ := hends
  · refine ⟨_, before.map Prod.snd, hhist, List.forall_mem_map.2 hbefore, .inl ⟨hack, ?_, ?_⟩⟩
    · simpa [Nat.succ_le_iff] using hlength
    · rw [transfers_gateEvents, List.map_append, List.map_map, List.map_singleton, hk]
      rfl
  · refine ⟨_, rounds.map Prod.snd, hhist, List.forall_mem_map.2 hfailed, .inr ⟨hack, by rwa [List.length_map], ?_⟩⟩
    rw [transfers_gateEvents, List.map_map]
    rfl

theorem endPageWrite_err (w : ErrKind × State) : (endPageWrite w).res.err = w.1 := by
  unfold endPageWrite
  split
  · exact Eq.symm ‹_›
  · rfl

theorem endPageWrite_history (w : ErrKind × State) :
    (endPageWrite w).history = .result (endPageWrite w).res :: w.2.history := by
  unfold endPageWrite
  split <;> rfl

/-- A page write that was not taken is not the exhausted gate's. -/
theorem State.gate_of_notReady {s : State} {id : Nat} {content : List Byte}
    (h : (s.writePageRaw id content).1 = .notReady) : (s.gate s.params.eeWriteTries).1 = false := by
  by_contra hready
  have hgate : s.gate s.params.eeWriteTries = (true, (s.gate s.params.eeWriteTries).2) :=
    Prod.ext (Bool.eq_true_of_not_eq_false hready) rfl
  rw [State.writePageRaw_of_ready hgate] at h
  split at h <;> cases h

/-- An EE.WRITE that reports NOT_READY is that of a gate which ended unacknowledged. -/
theorem exec_eeWrite_notReady {s t : State} {id : Nat} (h : exec (.eeWrite id) s = .next t)
    (hres : t.res.err = .notReady) :
    (s.gate s.params.eeWriteTries).1 = false ∧
      t.history = .result t.res :: (s.gate s.params.eeWriteTries).2.history := by
  rcases Nat.lt_or_ge id s.params.eePages with hid | hid
  · cases hread : s.pbuf.readBytes 0 pbufSize with
    | none => cases (exec_eeWrite_of_unwritten hid hread).symm.trans h
    | some content =>
      cases (exec_eeWrite_of_written hid hread).symm.trans h
      rw [endPageWrite_err] at hres
      have hgate := State.gate_of_notReady hres
      refine ⟨hgate, ?_⟩
      rw [endPageWrite_history, State.writePageRaw_of_notReady hgate]
  · cases (exec_eeWrite_of_ge hid).symm.trans h
    cases hres

/-- Settles O46: NOT_READY stands for a gate that ended unacknowledged; PBUF is not among what EE.WRITE writes. -/
theorem eeWriteGateExhausted : Obligations.EeWriteGateExhausted := by
  intro id s t hexec
  refine ⟨?_, fun hres => ?_⟩
  · obtain ⟨u, r, rfl, hwrites⟩ := exec_writes hexec
    obtain ⟨-, -, hsame | ⟨_, hread⟩⟩ := hwrites.other_units
    · exact fun a => congrArg (Memory.lookup · a) hsame
    · cases hread
  · obtain ⟨hgate, hhist⟩ := exec_eeWrite_notReady hexec hres
    obtain ⟨evs, fails, hevs, hfails, ⟨hack, -⟩ | ⟨-, hlength, hprobes⟩⟩ := s.gate_probes s.params.eeWriteTries
    · simp [hgate] at hack
    · refine ⟨.result t.res :: evs, fails.reverse, by rw [hhist, hevs]; rfl, by rw [List.length_reverse, hlength],
        fun hp => by rw [List.length_reverse, hlength, hp.eeWriteTries], by simpa using hfails, ?_⟩
      rw [List.map_reverse, ← hprobes, List.reverse_reverse]
      rfl

end Sys2Proof.Machine

/-! PROOF. EE.FORMAT and EE.INIT in every environment (spec/43_eeprom.md R224, R225): the attempt at one page by its
transactions, and the pass over all pages with its mask. -/

namespace Sys2Proof.Machine

/-! ### One page -/

/-- A page write is one attempt at the page. -/
theorem State.writePageRaw_attempt (s : State) (id : Nat) (content : List Byte) :
    ∃ evs, (s.writePageRaw id content).2.history = evs ++ s.history ∧
      PageAttempt s.params id content (decide ((s.writePageRaw id content).1 = .none)) (transfers evs).reverse := by
  obtain ⟨evs, fails, hevs, hfails, ⟨hack, hlength, hprobes⟩ | ⟨hack, hlength, hprobes⟩⟩ :=
    s.gate_probes s.params.eeWriteTries
  · have hgate : s.gate s.params.eeWriteTries = (true, (s.gate s.params.eeWriteTries).2) := Prod.ext hack rfl
    have hparams : (s.gate s.params.eeWriteTries).2.params = s.params := (s.gate_quietEe _).params
    have hhist := (s.gate s.params.eeWriteTries).2.pageWrite_history id content
    rw [hparams, hevs] at hhist
    have hseg (r : Int) : (transfers (pageWriteEvent s.params id content r :: evs)).reverse =
        fails.map (probeEvent s.params) ++ [probeEvent s.params 0, pageWriteEvent s.params id content r] := by
      change (pageWriteEvent s.params id content r :: transfers evs).reverse = _
      rw [List.reverse_cons, hprobes, List.append_assoc]
      rfl
    by_cases hr : ((s.gate s.params.eeWriteTries).2.pageWrite id content).1 = 34
    · rw [State.writePageRaw_of_taken hgate hr, State.armReadyTime_history]
      exact ⟨_, hhist, .inr ⟨fails, _, hlength, hfails, hseg _, by simp [hr]⟩⟩
    · rw [State.writePageRaw_of_short hgate hr]
      exact ⟨_, hhist, .inr ⟨fails, _, hlength, hfails, hseg _, by simp [hr]⟩⟩
  · rw [State.writePageRaw_of_notReady hack]
    exact ⟨evs, hevs, .inl ⟨fails, hlength, hfails, hprobes, rfl⟩⟩

/-! ### The pass over the pages -/

/-- From the history `h` to `h'` the pages `ids` were attempted in order, each with a content that is `Content`'s for
it, and the mask went from `failed` to `failed'` by the pages whose attempt failed. -/
def PagesAttempted (p : Params) (Content : Nat → List Byte → Prop) (ids : List Nat) (failed failed' : BitVec 128)
    (h h' : List Event) : Prop :=
  ∃ (evs : List Event) (segs : Nat → List Event),
    h' = evs ++ h ∧ (transfers evs).reverse = ids.flatMap segs ∧
    (∀ id ∈ ids, ∃ c, Content id c ∧ PageAttempt p id c (!failed'.getLsbD id) (segs id)) ∧
    ∀ id, id ∉ ids → failed'.getLsbD id = failed.getLsbD id

theorem failedMask_getLsbD (m : BitVec 128) {id : Nat} (hid : id < 128) (e : ErrKind) (j : Nat) :
    (failedMask m id e).getLsbD j = (m.getLsbD j || (decide (j = id) && decide (e ≠ .none))) := by
  unfold failedMask
  split
  · simp [*]
  · have hone : (BitVec.ofNat 128 (1 <<< id)).getLsbD j = decide (j = id) := by
      rw [BitVec.getLsbD_ofNat, Nat.one_shiftLeft, Nat.testBit_two_pow]
      by_cases hj : j = id
      · simp [hj, hid]
      · simp [hj, Ne.symm hj]
    rw [BitVec.getLsbD_or]
    exact (congrArg (m.getLsbD j || ·) hone).trans (by simp [*])

theorem PagesAttempted.nil (p : Params) (Content : Nat → List Byte → Prop) (failed : BitVec 128) (h : List Event) :
    PagesAttempted p Content [] failed failed h h :=
  ⟨[], fun _ => [], rfl, rfl, by simp, fun _ _ => rfl⟩

/-- One page before the others. -/
theorem PagesAttempted.cons {p : Params} {Content : Nat → List Byte → Prop} {id : Nat} {rest : List Nat}
    {failed failed' : BitVec 128} {h h' evs : List Event} {kind : ErrKind} {c : List Byte} (hid : id < 128)
    (hnew : id ∉ rest) (hclear : failed.getLsbD id = false) (hcontent : Content id c)
    (hattempt : PageAttempt p id c (decide (kind = .none)) (transfers evs).reverse)
    (hrest : PagesAttempted p Content rest (failedMask failed id kind) failed' (evs ++ h) h') :
    PagesAttempted p Content (id :: rest) failed failed' h h' := by
  obtain ⟨later, segs, hhist, htransfers, hpages, hothers⟩ := hrest
  have hbit : (!failed'.getLsbD id) = decide (kind = .none) := by
    rw [hothers id hnew, failedMask_getLsbD _ hid, hclear]
    simp
  have hother (j : Nat) (hj : j ∈ rest) : j ≠ id := fun heq => hnew (heq ▸ hj)
  have hsegs : rest.flatMap (Function.update segs id (transfers evs).reverse) = rest.flatMap segs :=
    List.flatMap_congr fun j hj => Function.update_of_ne (hother j hj) ..
  refine ⟨later ++ evs, Function.update segs id (transfers evs).reverse, by rw [hhist, List.append_assoc], ?_, ?_, ?_⟩
  · rw [transfers_append, List.reverse_append, htransfers, List.flatMap_cons, Function.update_self, hsegs]
  · refine List.forall_mem_cons.2 ⟨⟨c, hcontent, ?_⟩, fun j hj => ?_⟩
    · rwa [hbit, Function.update_self]
    · rw [Function.update_of_ne (hother j hj)]
      exact hpages j hj
  · intro j hj
    obtain ⟨hne, hj⟩ := not_or.1 (List.mem_cons.not.1 hj)
    rw [hothers j hj, failedMask_getLsbD _ hid]
    simp [hne]

/-- The pages still to come stay clear in the mask. -/
theorem failedMask_clear {m : BitVec 128} {id : Nat} {rest : List Nat} (hid : id < 128) (hnew : id ∉ rest)
    (hclear : ∀ j ∈ rest, m.getLsbD j = false) (e : ErrKind) : ∀ j ∈ rest, (failedMask m id e).getLsbD j = false := by
  intro j hj
  have hne : j ≠ id := fun heq => hnew (heq ▸ hj)
  rw [failedMask_getLsbD _ hid, hclear j hj]
  simp [hne]

theorem State.formatPages_attempted (s : State) (r : List Byte) (failed : BitVec 128) (ids : List Nat)
    (hnodup : ids.Nodup) (hlt : ∀ id ∈ ids, id < 128) (hclear : ∀ id ∈ ids, failed.getLsbD id = false) :
    PagesAttempted s.params (fun _ c => c = r) ids failed (s.formatPages r failed ids).1 s.history
      (s.formatPages r failed ids).2.history := by
  induction ids generalizing s failed with
  | nil => exact .nil ..
  | cons id rest ih =>
    obtain ⟨hnew, hnodup⟩ := List.nodup_cons.1 hnodup
    obtain ⟨hid, hlt⟩ := List.forall_mem_cons.1 hlt
    obtain ⟨hfirst, hclear⟩ := List.forall_mem_cons.1 hclear
    obtain ⟨evs, hhist, hattempt⟩ := s.writePageRaw_attempt id r
    have hrest := ih (s.writePageRaw id r).2 (failedMask failed id (s.writePageRaw id r).1) hnodup hlt
      (failedMask_clear hid hnew hclear _)
    rw [(s.writePageRaw_quietEe id r).params, hhist] at hrest
    exact .cons hid hnew hfirst rfl hattempt hrest

/-- The contents that EE.INIT attempts on a page. -/
def InitPageContent (p : Params) (id : Nat) (c : List Byte) : Prop :=
  (id = p.eeSigPage ∧ ∃ pad : List Byte, pad.length = 21 ∧ c = signature p ++ pad) ∨
  (id ≠ p.eeSigPage ∧ c = initContent p id)

theorem State.initPage_content (s : State) (id : Nat) : InitPageContent s.params id (s.initPage id).1 := by
  unfold State.initPage
  split
  · exact .inl ⟨‹_›, _, s.drawBytes_length (by omega), rfl⟩
  · exact .inr ⟨‹_›, rfl⟩

theorem State.initPage_history (s : State) (id : Nat) : (s.initPage id).2.history = s.history := by
  unfold State.initPage
  split <;> rfl

theorem State.initPages_attempted (s : State) (failed : BitVec 128) (ids : List Nat)
    (hnodup : ids.Nodup) (hlt : ∀ id ∈ ids, id < 128) (hclear : ∀ id ∈ ids, failed.getLsbD id = false) :
    PagesAttempted s.params (InitPageContent s.params) ids failed (s.initPages failed ids).1 s.history
      (s.initPages failed ids).2.history := by
  induction ids generalizing s failed with
  | nil => exact .nil ..
  | cons id rest ih =>
    obtain ⟨hnew, hnodup⟩ := List.nodup_cons.1 hnodup
    obtain ⟨hid, hlt⟩ := List.forall_mem_cons.1 hlt
    obtain ⟨hfirst, hclear⟩ := List.forall_mem_cons.1 hclear
    have hparams : (s.initPage id).2.params = s.params := (s.initPage_quiet id).params
    obtain ⟨evs, hhist, hattempt⟩ := (s.initPage id).2.writePageRaw_attempt id (s.initPage id).1
    have hrest := ih ((s.initPage id).2.writePageRaw id (s.initPage id).1).2
      (failedMask failed id ((s.initPage id).2.writePageRaw id (s.initPage id).1).1) hnodup hlt
      (failedMask_clear hid hnew hclear _)
    rw [(State.writePageRaw_quietEe ..).params, hhist, hparams, s.initPage_history] at hrest
    rw [hparams] at hattempt
    exact .cons hid hnew hfirst (s.initPage_content id) hattempt hrest

/-! ### The two operations -/

theorem endBulk_res (f : BitVec 128 × State) :
    (endBulk f).res = if f.1 = 0 then { ok := true, err := .none, value := .nat 0 }
      else { ok := false, err := .partialFail, value := .mask f.1 } := by
  unfold endBulk
  split <;> rfl

theorem endBulk_history (f : BitVec 128 × State) : (endBulk f).history = .result (endBulk f).res :: f.2.history := by
  unfold endBulk
  split <;> rfl

/-- A bulk operation changes what its loop changed, and ends with its result. -/
theorem QuietEe.endBulk {s : State} {f : BitVec 128 × State} (h : QuietEe s f.2) :
    Machine.endBulk f = { s with
      ee := (Machine.endBulk f).ee
      res := (Machine.endBulk f).res
      history := (Machine.endBulk f).history
      env := (Machine.endBulk f).env } := by
  obtain ⟨r, hr⟩ := endBulk_eq_finish f
  rw [hr]
  exact h.finish r

/-- The result record is no attempt at a page. -/
theorem PagesAttempted.endBulk {p : Params} {Content : Nat → List Byte → Prop} {ids : List Nat} {failed : BitVec 128}
    {f : BitVec 128 × State} {h : List Event} (hf : PagesAttempted p Content ids failed f.1 h f.2.history) :
    PagesAttempted p Content ids failed f.1 h (Machine.endBulk f).history := by
  obtain ⟨evs, segs, hhist, htransfers, hpages⟩ := hf
  exact ⟨.result (Machine.endBulk f).res :: evs, segs, by rw [endBulk_history, hhist]; rfl, htransfers, hpages⟩

/-- Settles O48: one content for the pages from 0 on, the mask at first clear. -/
theorem formatGoesThroughAllPages : Obligations.FormatGoesThroughAllPages := by
  intro s hpages
  have hcontent : s.drawBytes 32 = (s.drawAt 0).data.toList := by
    rw [State.drawBytes, drawnBytes_page, State.nextDraw_eq_drawAt]
  obtain ⟨evs, segs, hhist, htransfers, hattempts, hothers⟩ := (s.afterDraw.formatPages_attempted (s.drawBytes 32) 0
    (List.range s.params.eePages) List.nodup_range (fun id hid => Nat.lt_of_lt_of_le (List.mem_range.1 hid) hpages)
    fun id _ => BitVec.getLsbD_zero).endBulk
  have hquiet := s.afterDraw_quiet.toEe.trans (s.afterDraw.formatPages_quietEe (s.drawBytes 32) 0
    (List.range s.params.eePages))
  refine ⟨_, evs, _, segs, rfl, rfl, hquiet.endBulk, hhist, htransfers, fun id hid => ?_, fun id hid => ?_,
    endBulk_res _⟩
  · obtain ⟨c, rfl, hattempt⟩ := hattempts id (List.mem_range.2 hid)
    exact hcontent ▸ hattempt
  · rw [hothers id (by simpa using hid)]
    exact BitVec.getLsbD_zero

theorem initContent_eq (p : Params) (id : Fin 127) : initContent p id.val = p.initContent[id].toList := by
  rw [initContent, Vector.getElem?_eq_getElem id.isLt]
  rfl

/-- Settles O49: each page with its own content, the signature page the last of the stated ones. -/
theorem initGoesThroughAllPages : Obligations.InitGoesThroughAllPages := by
  intro s hstated
  obtain ⟨evs, segs, hhist, htransfers, hattempts, -⟩ := (s.initPages_attempted 0 (List.range 128) List.nodup_range
    (fun id => List.mem_range.1) fun id _ => BitVec.getLsbD_zero).endBulk
  have hexec : exec .eeInit s = .next (endBulk (s.initPages 0 (List.range 128))) := by
    rw [exec, execEeInit, hstated.eePages]
  have hsig := hattempts 127 (by decide)
  rw [← hstated.eeSigPage] at hsig
  obtain ⟨c, ⟨-, pad, hpad, rfl⟩ | ⟨hne, -⟩, hattempt⟩ := hsig
  · rw [hstated.eeSigPage] at hattempt
    refine ⟨_, evs, _, segs, pad, rfl, hexec, (s.initPages_quietEe 0 (List.range 128)).endBulk, hhist, htransfers,
      fun id => ?_, hpad, hattempt, endBulk_res _⟩
    obtain ⟨c, ⟨heq, -⟩ | ⟨-, rfl⟩, hid⟩ := hattempts id.val (List.mem_range.2 (by omega))
    · exact absurd heq (by rw [hstated.eeSigPage]; omega)
    · rwa [initContent_eq] at hid
  · exact absurd rfl hne

end Sys2Proof.Machine

/-! PROOF. EE.INIT where every transaction succeeds, and EE.CHECKSIG, under the unrestricted oracle
(spec/43_eeprom.md R225, R226). -/

namespace Sys2Proof.Machine

/-! ### EE.CHECKSIG -/

section Checksig

variable {s t : State}

theorem State.checkSignature_of_page {p : List Byte} (h : s.readPageRaw s.params.eeSigPage = (.page p, t)) :
    s.checkSignature = t.finish (if p.take 11 = signature s.params
      then { ok := true, err := .none, value := .bool true }
      else { ok := false, err := .sigMismatch, value := .bool false }) := by
  rw [State.checkSignature, h]
  dsimp only
  split
  · rw [if_pos ‹_›]
    rfl
  · rw [if_neg ‹_›]
    rfl

theorem State.checkSignature_of_noAddress (h : s.readPageRaw s.params.eeSigPage = (.noAddress, t)) :
    s.checkSignature = t.finish { ok := false, err := .bus, value := .bool false } := by
  rw [State.checkSignature, h]
  rfl

theorem State.checkSignature_of_noData (h : s.readPageRaw s.params.eeSigPage = (.noData, t)) :
    s.checkSignature = t.finish { ok := false, err := .bus, value := .bool false } := by
  rw [State.checkSignature, h]
  rfl

/-- A read of the signature page that fails is BUS, and changes nothing but the environment and the history. -/
theorem State.checkSignature_bus (h : s.checkSignature =
      (s.readPageRaw s.params.eeSigPage).2.finish { ok := false, err := .bus, value := .bool false }) :
    ∃ (t : State) (res : Result), res = { ok := false, err := .bus, value := .bool false } ∧
      exec .eeChecksig s = .next t ∧ t = { s with res := res, history := t.history, env := t.env } :=
  ⟨_, _, rfl, congrArg Host.Outcome.next h, (s.readPageRaw_quiet _).finish _⟩

end Checksig

/-- Settles O51: the page read of the signature page, by its choices. -/
theorem checksigComparesSignature : Obligations.ChecksigComparesSignature := by
  intro s pre w r
  refine ⟨rfl, fun hp => by rw [hp.eeSigPage, hp.eePageSize]; rfl, fun hpre => ⟨fun hawaits htaken hdata => ?_,
    fun hawaits hfails => ?_⟩⟩
  · have hw : s.drawAt pre.length = w := hawaits.draw_append 0 (by simp)
    have hr : s.drawAt (pre.length + 1) = r := hawaits.draw_append 1 (by simp)
    obtain ⟨now, -, hread⟩ := State.readPageRaw_taken hpre hawaits.oracle (hw ▸ htaken) s.params.eeSigPage
    rw [hr, show transferResult r.result 32 = 32 from transferResult_of_ge (len := 32) hdata, if_pos rfl] at hread
    exact ⟨now, _, rfl, congrArg Host.Outcome.next (State.checkSignature_of_page hread)⟩
  · have hw : s.drawAt pre.length = w := hawaits.draw_append 0 (by simp)
    have hr : s.drawAt (pre.length + 1) = r := hawaits.draw_append 1 (by simp)
    rcases lt_or_ge w.result 2 with hshort | htaken
    · obtain ⟨now, k, -, -, hread⟩ := State.readPageRaw_notTaken hpre hawaits.oracle (hw ▸ hshort) s.params.eeSigPage
      exact State.checkSignature_bus (by rw [State.checkSignature_of_noAddress hread, hread])
    · obtain ⟨now, -, hread⟩ := State.readPageRaw_taken hpre hawaits.oracle (hw ▸ htaken) s.params.eeSigPage
      have hdata : transferResult r.result 32 < 32 := transferResult_of_lt (len := 32) (by omega)
      rw [hr, if_neg (Int.ne_of_lt hdata)] at hread
      exact State.checkSignature_bus (by rw [State.checkSignature_of_noData hread, hread])

/-! ### Pages written at the first probe -/

/-- The transactions of a page written at the first probe. -/
def pageWritten (p : Params) (id : Nat) (content : List Byte) : List Event :=
  [probeEvent p 0, pageWriteEvent p id content 34]

section Succeeds

variable {s t : State} {k : Nat} {now : Timestamp} (h : t.env = envAfter s k now) (ho : s.env.devices = none)
  (hparams : t.params = s.params) (htries : 0 < s.params.eeWriteTries)
include h ho hparams htries

/-- A page write whose probe and transaction succeed: four choices. -/
theorem State.writePageRaw_succeeds {n : Nat} (hall : ∀ j, j < n → 34 ≤ (s.drawAt j).result) (hn : k + 4 ≤ n) (id : Nat)
    {content : List Byte} (hlength : content.length = 32) :
    ∃ (u : State) (now' : Timestamp) (evs : List Event), t.writePageRaw id content = (.none, u) ∧
      u.env = envAfter s (k + 4) now' ∧ u.params = s.params ∧ u.history = evs ++ t.history ∧
      (transfers evs).reverse = pageWritten s.params id content := by
  obtain ⟨left, hleft⟩ : ∃ left, t.params.eeWriteTries = left + 1 :=
    ⟨t.params.eeWriteTries - 1, by rw [hparams]; omega⟩
  have hack := hall (k + 1) (by omega)
  obtain ⟨probed, -, -, hgate⟩ := State.gate_acknowledged h ho (by omega) left
  rw [← hleft] at hgate
  obtain ⟨now', -, hpage⟩ := State.writePageRaw_taken hgate rfl ho id hlength (hall (k + 2) (by omega))
  refine ⟨_, now', [pageWriteEvent t.params id content 34, probeEvent t.params 0, .sleep t.ee.readyTime], hpage, rfl,
    hparams, rfl, ?_⟩
  rw [hparams]
  rfl

/-- The pages of a stretch that is not the signature page's, each with a content of its own. -/
theorem State.initPages_succeeds {n : Nat} (hall : ∀ j, j < n → 34 ≤ (s.drawAt j).result) {ids : List Nat}
    (hn : k + 4 * ids.length ≤ n) (hids : ∀ id ∈ ids, id ≠ s.params.eeSigPage ∧ (initContent s.params id).length = 32)
    (failed : BitVec 128) (rest : List Nat) :
    ∃ (u : State) (now' : Timestamp) (evs : List Event),
      t.initPages failed (ids ++ rest) = u.initPages failed rest ∧
      u.env = envAfter s (k + 4 * ids.length) now' ∧ u.params = s.params ∧ u.history = evs ++ t.history ∧
      (transfers evs).reverse = ids.flatMap fun id => pageWritten s.params id (initContent s.params id) := by
  induction ids generalizing t k now with
  | nil => exact ⟨t, now, [], rfl, h, hparams, rfl, rfl⟩
  | cons id ids ih =>
    obtain ⟨⟨hne, hlength⟩, hids⟩ := List.forall_mem_cons.1 hids
    rw [List.length_cons] at hn
    obtain ⟨u, now', evs, hpage, henv, hkept, hhist, htransfers⟩ :=
      State.writePageRaw_succeeds h ho hparams htries hall (by omega) id hlength
    obtain ⟨v, last, later, hrest, henv', hkept', hhist', htransfers'⟩ := ih henv hkept (by omega) hids
    have hinit : t.initPage id = (initContent s.params id, t) := by
      rw [State.initPage, if_neg (hparams ▸ hne), hparams]
    refine ⟨v, last, later ++ evs, ?_, ?_, hkept', by rw [hhist', hhist, List.append_assoc], ?_⟩
    · rw [List.cons_append, State.initPages, hinit]
      dsimp only
      rw [hpage, ← hrest]
      rfl
    · rw [henv', List.length_cons, show k + 4 + 4 * ids.length = k + 4 * (ids.length + 1) by omega]
    · rw [transfers_append, List.reverse_append, htransfers, htransfers', List.flatMap_cons]

end Succeeds

/-- The signature page, after its pad is drawn: five choices. -/
theorem State.initPages_signature {s t : State} {k : Nat} {now : Timestamp} (h : t.env = envAfter s k now)
    (ho : s.env.devices = none) (hparams : t.params = s.params) (htries : 0 < s.params.eeWriteTries) {n : Nat}
    (hall : ∀ j, j < n → 34 ≤ (s.drawAt j).result) (hn : k + 5 ≤ n) (failed : BitVec 128) :
    ∃ (u : State) (evs : List Event), t.initPages failed [s.params.eeSigPage] = (failed, u) ∧
      u.history = evs ++ t.history ∧
      (transfers evs).reverse = pageWritten s.params s.params.eeSigPage
        (signature s.params ++ (s.drawAt k).data.toList.take 21) := by
  have hinit : t.initPage s.params.eeSigPage =
      (signature s.params ++ (s.drawAt k).data.toList.take 21, t.afterDraw) := by
    rw [State.initPage, hparams, if_pos rfl, State.drawBytes, State.nextDraw_after h]
    rfl
  have henv : t.afterDraw.env = envAfter s (k + 1) now := by rw [State.afterDraw_after h]
  have hlength := t.initPage_length s.params.eeSigPage
  rw [hinit] at hlength
  obtain ⟨u, -, evs, hpage, -, -, hhist, htransfers⟩ := State.writePageRaw_succeeds henv ho hparams htries hall
    (by omega) s.params.eeSigPage (hlength.resolve_right (by simp [signature_length]))
  refine ⟨u, evs, ?_, hhist, htransfers⟩
  simp only [State.initPages, hinit, hpage, failedMask, if_true]

/-- Settles O50: the pages 0 to 126 by their contents, and the signature page by the choice its pad takes. -/
theorem initWritesEveryPage : Obligations.InitWritesEveryPage := by
  intro s ds pad hp hawaits hlength hpad hresults
  have hall (j : Nat) (hj : j < 513) : 34 ≤ (s.drawAt j).result := by
    rw [hawaits.draw j (by omega)]
    exact hresults _ (List.getElem_mem _)
  have hdraw : s.drawAt 508 = pad := by
    rw [hawaits.draw 508 (by omega)]
    exact (List.getElem?_eq_some_iff.1 hpad).2
  have htries : 0 < s.params.eeWriteTries := by rw [hp.eeWriteTries]; decide
  have hpages (id : Nat) (hid : id ∈ List.range 127) :
      id ≠ s.params.eeSigPage ∧ (initContent s.params id).length = 32 := by
    have hlt := List.mem_range.1 hid
    refine ⟨by rw [hp.eeSigPage]; omega, ?_⟩
    rw [initContent_eq s.params ⟨id, hlt⟩]
    exact Vector.length_toList
  obtain ⟨u, now, evs, hloop, henv, hparams, hhist, htransfers⟩ := State.initPages_succeeds (k := 0)
    (envAfter_zero s).symm hawaits.oracle rfl htries hall (by simp) hpages 0 [s.params.eeSigPage]
  rw [List.length_range] at henv
  obtain ⟨v, last, hend, hhist', htransfers'⟩ :=
    State.initPages_signature henv hawaits.oracle hparams htries hall (by omega) 0
  rw [hend, hp.eeSigPage] at hloop
  have hexec : exec .eeInit s = .next (endBulk (s.initPages 0 (List.range 127 ++ [127]))) := by
    rw [exec, execEeInit, hp.eePages, ← List.range_succ]
  have hquiet := (s.initPages_quietEe 0 (List.range 127 ++ [127])).endBulk
  rw [hloop] at hexec hquiet
  refine ⟨_, .result (endBulk (0, v)).res :: (last ++ evs), hexec, hquiet, rfl, ?_, ?_⟩
  · rw [endBulk_history, hhist', hhist, ← List.append_assoc]
    rfl
  · have hfin : (List.range 127).flatMap (fun id => pageWritten s.params id (initContent s.params id)) =
        (List.finRange 127).flatMap fun id => pageWritten s.params id.val s.params.initContent[id].toList := by
      rw [← List.map_coe_finRange_eq_range, List.flatMap_map]
      exact List.flatMap_congr fun id _ => congrArg (pageWritten s.params id.val) (initContent_eq s.params id)
    change (transfers (last ++ evs)).reverse = _
    rw [transfers_append, List.reverse_append, htransfers, htransfers', hfin, hp.eeSigPage, hdraw]
    rfl

end Sys2Proof.Machine

/-! PROOF. The signature page of the reference EEPROM (spec/20_memory.md R82; spec/43_eeprom.md R228): what a page write
that was taken leaves there, and what a page read that succeeds gives. -/

namespace Sys2Proof.Machine

/-! ### The array -/

theorem RefEeprom.cellAddr_signature {i : Nat} (hi : i < 32) : RefEeprom.cellAddr 0x0FE0 i = 4064 + i := by
  have hall : ∀ i : Fin 32, RefEeprom.cellAddr 0x0FE0 i.val = 4064 + i.val := by decide
  exact hall ⟨i, hi⟩

/-- A byte of the signature page after data bytes from the `i`-th on were stored there. -/
theorem RefEeprom.eeByte_store {m : Memory} (hm : m.eeWf = true) {i : Nat} {data : List Byte}
    (hlength : i + data.length ≤ 32) (j : Nat) :
    (RefEeprom.store m 0x0FE0 i data).eeByte (4064 + j) =
      if j < i then m.eeByte (4064 + j) else data[j - i]?.getD (m.eeByte (4064 + j)) := by
  induction data generalizing m i with
  | nil => simp [RefEeprom.store]
  | cons b bs ih =>
    rw [List.length_cons] at hlength
    rw [RefEeprom.store, ih (Memory.eeWf_eeSet m _ b (RefEeprom.cellAddr_lt _ i) hm) (by omega),
      Memory.eeByte_eeSet _ _ _ _ hm, RefEeprom.cellAddr_signature (by omega)]
    obtain hlt | rfl | hgt := Nat.lt_trichotomy j i
    · rw [if_pos (by omega), if_neg (by omega), if_pos hlt]
    · simp
    · obtain ⟨d, rfl⟩ : ∃ d, j = i + 1 + d := ⟨j - (i + 1), by omega⟩
      rw [if_neg (by omega), if_neg (by omega), if_neg (by omega), show i + 1 + d - i = d + 1 by omega,
        List.getElem?_cons_succ, Nat.add_sub_cancel_left]

theorem RefEeprom.load_eq_map (m : Memory) (a n : Nat) :
    RefEeprom.load m a n = (List.range n).map fun i => m.eeByte ((a + i) % refEepromSize) := by
  induction n generalizing a with
  | zero => rfl
  | succ n ih =>
    rw [RefEeprom.load, ih, List.range_succ_eq_map, List.map_cons, List.map_map]
    refine congrArg _ (List.map_congr_left fun i _ => ?_)
    rw [Function.comp_apply, show a + 1 + i = a + (i + 1) by omega]

/-- The 32 bytes of the signature page are those stored there. -/
theorem RefEeprom.load_store {m : Memory} (hm : m.eeWf = true) {data : List Byte} (hlength : data.length = 32) :
    RefEeprom.load (RefEeprom.store m 0x0FE0 0 data) 4064 32 = data := by
  rw [RefEeprom.load_eq_map]
  refine List.ext_getElem (by simp [hlength]) fun i hi hi' => ?_
  have hlt : i < 32 := hlength ▸ hi'
  rw [List.getElem_map, List.getElem_range, refEepromSize, Nat.mod_eq_of_lt (by omega),
    RefEeprom.eeByte_store hm (by omega), if_neg (Nat.not_lt_zero i), Nat.sub_zero, List.getElem?_eq_getElem hi']
  rfl

/-! ### The device's transactions that succeed -/

section Device

variable {e : RefEeprom} {p : Params} {t0 t1 : Timestamp} {d : Draw} {hi lo : Byte}

/-- While a write cycle runs, no transaction succeeds. -/
theorem RefEeprom.write_of_busy (h : e.busy t0 = true) (bytes : List Byte) : (e.write p t0 t1 d bytes).1 < 0 := by
  unfold RefEeprom.write
  rw [if_pos h]
  exact negativeResult_neg d

theorem RefEeprom.write_page {content : List Byte} (hlength : content.length = 32)
    (h : (e.write p t0 t1 d (hi :: lo :: content)).1 = 34) :
    (e.write p t0 t1 d (hi :: lo :: content)).2.mem = RefEeprom.store e.mem (halfOfBytes hi lo) 0 content := by
  cases hbusy : e.busy t0 with
  | true =>
    have := RefEeprom.write_of_busy (p := p) (t1 := t1) (d := d) hbusy (hi :: lo :: content)
    omega
  | false =>
    obtain ⟨b, bs, rfl⟩ := List.exists_cons_of_length_pos (l := content) (by omega)
    simp [RefEeprom.write, hbusy]

theorem RefEeprom.write_address (h : (e.write p t0 t1 d [hi, lo]).1 = 2) :
    (e.write p t0 t1 d [hi, lo]).2 = { e with ptr := (halfOfBytes hi lo).setWidth 12 } := by
  cases hbusy : e.busy t0 with
  | true =>
    have := RefEeprom.write_of_busy (p := p) (t1 := t1) (d := d) hbusy [hi, lo]
    omega
  | false => simp [RefEeprom.write, hbusy]

theorem RefEeprom.read_page (h : (e.read t0 d 32).1 = 32) :
    (e.read t0 d 32).2.1 = RefEeprom.load e.mem e.ptr.toNat 32 := by
  unfold RefEeprom.read at h ⊢
  split at h
  · have := negativeResult_neg d
    omega
  · rw [if_neg ‹_›]

end Device

/-! ### The EEPROM on the bus -/

/-- The EEPROM's address is neither the reference ADC's nor, by the class nibbles, the DAC's. -/
structure ReachesEeprom (p : Params) : Prop where
  stated : p.Stated
  notAdc : ¬(p.eeBus = p.adcBus ∧ eeAddr p = p.adcAddr)

theorem eeAddr_ne_dacAddr {p : Params} (hp : p.Stated) : eeAddr p ≠ dacAddr p := by
  intro h
  have hnat := congrArg BitVec.toNat h
  rw [eeAddr, dacAddr, deviceAddr_toNat, deviceAddr_toNat, hp.eeClassNibble, hp.dacClassNibble] at hnat
  change 10 * 8 + _ = 12 * 8 + _ at hnat
  have := p.eeCs.isLt
  omega

section Bus

variable {s : State} {v : Devices} (hp : ReachesEeprom s.params) (hv : s.env.devices = some v)
include hp hv

theorem State.writeAnswer_eeprom (bytes : List Byte) :
    s.writeAnswer s.params.eeBus (eeAddr s.params) bytes =
      ((v.eeprom.write s.params s.env.clock s.transferEnd s.nextDraw bytes).1,
        some { v with eeprom := (v.eeprom.write s.params s.env.clock s.transferEnd s.nextDraw bytes).2 }) := by
  have hdac : ¬(s.params.eeBus = s.params.dacBus ∧ eeAddr s.params = dacAddr s.params) :=
    fun h => eeAddr_ne_dacAddr hp.stated h.2
  simp only [State.writeAnswer, hv, Devices.write, if_neg hp.notAdc, if_neg hdac, and_self, if_true]

theorem State.readAnswer_eeprom (n : Nat) :
    s.readAnswer s.params.eeBus (eeAddr s.params) n =
      ((v.eeprom.read s.env.clock s.nextDraw n).1, (v.eeprom.read s.env.clock s.nextDraw n).2.1,
        some { v with eeprom := (v.eeprom.read s.env.clock s.nextDraw n).2.2 }) := by
  have hdac : ¬(s.params.eeBus = s.params.dacBus ∧ eeAddr s.params = dacAddr s.params) :=
    fun h => eeAddr_ne_dacAddr hp.stated h.2
  simp only [State.readAnswer, hv, Devices.read, if_neg hp.notAdc, if_neg hdac, and_self, if_true]

end Bus

/-! ### The signature page -/

/-- The signature page of the reference EEPROM, where there is one, reads `content`. -/
def State.HoldsSignaturePage (s : State) (content : List Byte) : Prop :=
  ∃ v, s.env.devices = some v ∧ RefEeprom.load v.eeprom.mem 4064 32 = content

theorem bigEndianBytes_signature {p : Params} (hp : p.Stated) :
    bigEndianBytes (p.eeSigPage * p.eePageSize) = [0x0F, 0xE0] := by
  rw [hp.eeSigPage, hp.eePageSize]
  rfl

section Page

variable {s : State} {p : Params} (hparams : s.params = p) (hp : ReachesEeprom p)
  (hdevices : s.env.devices.isSome = true) (hwf : s.EepromWf) {content : List Byte} (hlength : content.length = 32)
include hparams hp hdevices hwf hlength

theorem State.pageWrite_stores (htaken : (s.pageWrite p.eeSigPage content).1 = 34) :
    (s.pageWrite p.eeSigPage content).2.HoldsSignaturePage content := by
  subst hparams
  obtain ⟨v, hv⟩ := Option.isSome_iff_exists.1 hdevices
  have hanswer := State.writeAnswer_eeprom hp hv (0x0F :: 0xE0 :: content)
  have hwrite : s.pageWrite s.params.eeSigPage content =
      s.busWrite s.params.eeBus (eeAddr s.params) (0x0F :: 0xE0 :: content) false := by
    rw [State.pageWrite, bigEndianBytes_signature hp.stated]
    rfl
  rw [hwrite] at htaken ⊢
  have hresult := (congrArg Prod.fst hanswer).symm.trans htaken
  exact ⟨_, congrArg Prod.snd hanswer, (congrArg (RefEeprom.load · 4064 32)
    (RefEeprom.write_page hlength hresult)).trans (RefEeprom.load_store (hwf v hv) hlength)⟩

omit hparams hp hdevices hwf hlength in
/-- A page write that succeeds had its gate acknowledged and its transaction taken. -/
theorem State.taken_of_writePageRaw {id : Nat} (h : (s.writePageRaw id content).1 = .none) :
    ((s.gate s.params.eeWriteTries).2.pageWrite id content).1 = 34 ∧
      s.writePageRaw id content = (.none, ((s.gate s.params.eeWriteTries).2.pageWrite id content).2.armReadyTime) := by
  cases hack : (s.gate s.params.eeWriteTries).1 with
  | false =>
    rw [State.writePageRaw_of_notReady hack] at h
    exact nomatch h
  | true =>
    have hready : s.gate s.params.eeWriteTries = (true, (s.gate s.params.eeWriteTries).2) := Prod.ext hack rfl
    by_cases hr : ((s.gate s.params.eeWriteTries).2.pageWrite id content).1 = 34
    · exact ⟨hr, State.writePageRaw_of_taken hready hr⟩
    · rw [State.writePageRaw_of_short hready hr] at h
      exact nomatch h

/-- A page write of the signature page that succeeds, with its gate before and its clock reading after. -/
theorem State.writePageRaw_stores (htaken : (s.writePageRaw p.eeSigPage content).1 = .none) :
    (s.writePageRaw p.eeSigPage content).2.HoldsSignaturePage content := by
  have hgate := s.gate_quietEe s.params.eeWriteTries
  obtain ⟨hr, hwritten⟩ := State.taken_of_writePageRaw htaken
  obtain ⟨v, hv, hload⟩ := State.pageWrite_stores (hgate.params.trans hparams) hp (hgate.devices.trans hdevices)
    ((s.gate_issues _).eeprom hwf) hlength hr
  refine ⟨v, ?_, hload⟩
  rw [hwritten, State.armReadyTime_env]
  exact hv

end Page

/-! ### A bulk operation that succeeds, the signature page its last -/

theorem State.formatPages_concat (s : State) (r : List Byte) (failed : BitVec 128) (ids : List Nat) (id : Nat) :
    s.formatPages r failed (ids ++ [id]) =
      (failedMask (s.formatPages r failed ids).1 id ((s.formatPages r failed ids).2.writePageRaw id r).1,
        ((s.formatPages r failed ids).2.writePageRaw id r).2) := by
  induction ids generalizing s failed with
  | nil => rfl
  | cons first rest ih => exact ih ..

theorem State.initPages_concat (s : State) (failed : BitVec 128) (ids : List Nat) (id : Nat) :
    s.initPages failed (ids ++ [id]) =
      (failedMask (s.initPages failed ids).1 id
          (((s.initPages failed ids).2.initPage id).2.writePageRaw id ((s.initPages failed ids).2.initPage id).1).1,
        (((s.initPages failed ids).2.initPage id).2.writePageRaw id ((s.initPages failed ids).2.initPage id).1).2) := by
  induction ids generalizing s failed with
  | nil => rfl
  | cons first rest ih => exact ih ..

/-- A mask that is clear after a page has that page written. -/
theorem eq_none_of_failedMask_eq_zero {m : BitVec 128} {id : Nat} (hid : id < 128) {e : ErrKind}
    (h : failedMask m id e = 0) : e = .none := by
  have hbit := failedMask_getLsbD m hid e id
  rw [h] at hbit
  simp at hbit
  exact hbit.2

theorem endBulk_ok {f : BitVec 128 × State} (h : (endBulk f).res.ok = true) : f.1 = 0 := by
  rw [endBulk_res] at h
  split at h
  · assumption
  · cases h

theorem endBulk_devices (f : BitVec 128 × State) : (endBulk f).env.devices = f.2.env.devices := by
  unfold endBulk
  split <;> rfl

theorem endBulk_params (f : BitVec 128 × State) : (endBulk f).params = f.2.params := by
  unfold endBulk
  split <;> rfl

/-- A bulk operation that succeeds and ends with the signature page leaves there what it wrote. -/
theorem endBulk_holdsSignaturePage {g : State} {p : Params} (hparams : g.params = p) (hp : ReachesEeprom p)
    (hdevices : g.env.devices.isSome = true) (hwf : g.EepromWf) {content : List Byte} (hlength : content.length = 32)
    {m : BitVec 128} {t : State} (hend : endBulk (failedMask m p.eeSigPage (g.writePageRaw p.eeSigPage content).1,
      (g.writePageRaw p.eeSigPage content).2) = t) (hok : t.res.ok = true) :
    t.params = p ∧ t.HoldsSignaturePage content := by
  subst hend
  have htaken := eq_none_of_failedMask_eq_zero (by rw [hp.stated.eeSigPage]; decide) (endBulk_ok hok)
  obtain ⟨v, hv, hload⟩ := State.writePageRaw_stores hparams hp hdevices hwf hlength htaken
  exact ⟨(endBulk_params _).trans ((State.writePageRaw_quietEe ..).params.trans hparams),
    v, (endBulk_devices _).trans hv, hload⟩

theorem range_eePages {p : Params} (hp : p.Stated) : List.range p.eePages = List.range 127 ++ [p.eeSigPage] := by
  rw [hp.eePages, hp.eeSigPage, ← List.range_succ]

theorem State.initPage_signature {g : State} {p : Params} (hparams : g.params = p) :
    g.initPage p.eeSigPage = (signature p ++ g.drawBytes 21, g.afterDraw) := by
  rw [State.initPage, hparams, if_pos rfl]

section Bulk

variable {s t : State} (hp : ReachesEeprom s.params) (hdevices : s.env.devices.isSome = true) (hwf : s.EepromWf)
include hp hdevices hwf

/-- An EE.FORMAT that succeeds leaves its content on the signature page. -/
theorem exec_eeFormat_holdsSignaturePage (hexec : exec .eeFormat s = .next t) (hok : t.res.ok = true) :
    t.params = s.params ∧ t.HoldsSignaturePage (s.drawAt 0).data.toList := by
  have hcontent : s.drawBytes 32 = (s.drawAt 0).data.toList := by
    rw [State.drawBytes, drawnBytes_page, State.nextDraw_eq_drawAt]
  have hlength : (s.drawAt 0).data.toList.length = 32 := Vector.length_toList
  have hend := Host.Outcome.next.inj hexec
  rw [range_eePages hp.stated, State.formatPages_concat, hcontent] at hend
  have hquiet := s.afterDraw_quiet.toEe.trans
    (s.afterDraw.formatPages_quietEe (s.drawAt 0).data.toList 0 (List.range 127))
  have hissues := s.afterDraw_issues.trans (s.afterDraw.formatPages_issues hlength 0 (List.range 127))
  exact endBulk_holdsSignaturePage hquiet.params hp (hquiet.devices.trans hdevices) (hissues.eeprom hwf) hlength hend
    hok

/-- An EE.INIT that succeeds leaves the signature and its pad on the signature page. -/
theorem exec_eeInit_holdsSignaturePage (hexec : exec .eeInit s = .next t) (hok : t.res.ok = true) :
    t.params = s.params ∧ ∃ pad, t.HoldsSignaturePage (signature s.params ++ pad) := by
  have hend := Host.Outcome.next.inj hexec
  rw [range_eePages hp.stated, State.initPages_concat] at hend
  have hquiet := s.initPages_quietEe 0 (List.range 127)
  have hwritten := (s.initPages_issues 0 (List.range 127)).eeprom hwf
  have hlength : (signature s.params ++ (s.initPages 0 (List.range 127)).2.drawBytes 21).length = 32 := by
    rw [List.length_append, signature_length, State.drawBytes_length _ (by decide)]
  rw [State.initPage_signature hquiet.params] at hend
  obtain ⟨hparams, hholds⟩ := endBulk_holdsSignaturePage ((State.afterDraw_quiet _).params.trans hquiet.params) hp
    ((State.afterDraw_quiet _).devices.trans (hquiet.devices.trans hdevices))
    ((State.afterDraw_issues _).eeprom hwritten) hlength hend hok
  exact ⟨hparams, _, hholds⟩

end Bulk

/-! ### EE.CHECKSIG -/

/-- A read of the signature page that succeeds gives what the page holds. -/
theorem State.readPageTransfers_signature {s t : State} {p : Params} (hparams : s.params = p) (hp : ReachesEeprom p)
    {content page : List Byte} (hholds : s.HoldsSignaturePage content)
    (hread : s.readPageTransfers p.eeSigPage = (.page page, t)) : page = content := by
  subst hparams
  obtain ⟨v, hv, hload⟩ := hholds
  have haddress := State.writeAnswer_eeprom hp hv [0x0F, 0xE0]
  rw [State.readPageTransfers, pageAddrBytes_eq, bigEndianBytes_signature hp.stated] at hread
  dsimp only at hread
  split at hread
  · rename_i htaken
    have hpointed := RefEeprom.write_address ((congrArg Prod.fst haddress).symm.trans htaken)
    have hdata := State.readAnswer_eeprom
      (s := (s.busWrite s.params.eeBus (eeAddr s.params) [0x0F, 0xE0] true).2) hp (congrArg Prod.snd haddress) 32
    split at hread
    · rename_i hwhole
      have hpage := RefEeprom.read_page ((congrArg Prod.fst hdata).symm.trans hwhole)
      cases hread
      refine (congrArg (fun a => a.2.1) hdata).trans (hpage.trans ?_)
      dsimp only
      rw [hpointed]
      exact hload
    · cases hread
  · cases hread

theorem State.waitForRead_devices (s : State) : s.waitForRead.env.devices = s.env.devices := by
  unfold State.waitForRead
  split <;> rfl

/-- A check of the signature page that the bus does not cut off. -/
theorem exec_eeChecksig_of_holds {t u : State} (hp : ReachesEeprom t.params) {content : List Byte}
    (hholds : t.HoldsSignaturePage content) (hexec : exec .eeChecksig t = .next u) (hbus : u.res.err ≠ .bus) :
    u.res = if content.take 11 = signature t.params then { ok := true, err := .none, value := .bool true }
      else { ok := false, err := .sigMismatch, value := .bool false } := by
  obtain rfl := Host.Outcome.next.inj hexec
  cases hread : t.readPageRaw t.params.eeSigPage with
  | mk result after =>
    cases result with
    | page page =>
      have hwaited : t.waitForRead.HoldsSignaturePage content := by
        rwa [State.HoldsSignaturePage, State.waitForRead_devices]
      rw [State.checkSignature_of_page hread,
        State.readPageTransfers_signature t.waitForRead_quiet.params hp hwaited hread]
      rfl
    | noAddress =>
      rw [State.checkSignature_of_noAddress hread] at hbus
      exact absurd rfl hbus
    | noData =>
      rw [State.checkSignature_of_noData hread] at hbus
      exact absurd rfl hbus

/-- Settles O52: what the operation left on the signature page is what the check reads there. -/
theorem signatureIsIdempotent : Obligations.SignatureIsIdempotent := by
  intro s t u hinv hdevices haddress
  have hp : ReachesEeprom s.params := ⟨hinv.paramsStated, haddress⟩
  have hwf : s.EepromWf := hinv.memoriesWf.2
  refine ⟨fun hinit hok hcheck hbus => ?_, fun hformat hok hcheck hbus => ?_⟩
  · obtain ⟨hparams, pad, hholds⟩ := exec_eeInit_holdsSignaturePage hp hdevices hwf hinit hok
    have hres := exec_eeChecksig_of_holds (hparams ▸ hp) hholds hcheck hbus
    rwa [hparams, ← signature_length s.params, List.take_left, if_pos rfl] at hres
  · obtain ⟨hparams, hholds⟩ := exec_eeFormat_holdsSignaturePage hp hdevices hwf hformat hok
    have hres := exec_eeChecksig_of_holds (hparams ▸ hp) hholds hcheck hbus
    rwa [hparams] at hres

end Sys2Proof.Machine
